-- ==== Sys2Proof/Word.lean ====
section
/-! DEFINITION. The two word types of the machine: every register and memory datum is 8 bits, every address is 16 bits
(00_scope R8, R10). -/

namespace Sys2Proof

/-- A byte: bits 7 down to 0 (00_scope R10). -/
abbrev Byte := BitVec 8

/-- An address: bits 15 down to 0, one of 65,536 byte locations (20_memory R50). -/
abbrev Addr := BitVec 16

end Sys2Proof
end

