-- ==== Sys2Proof/Machine/Bits.lean ====
section
/-! DEFINITION. Bit fields, byte order and extension: `lo`, `hi`, `addr`, `sext_16`, `zext_16` and single bits (00_scope R10). -/

namespace Sys2Proof.Machine

/-- `lo(a) = a[7:0]`. -/
def lo (a : Addr) : Byte :=
  a.setWidth 8

/-- `hi(a) = a[15:8]`. -/
def hi (a : Addr) : Byte :=
  (a >>> 8).setWidth 8

/-- `addr(h, l)`: the concatenation `h:l`, named apart from the address fields of State. -/
def mkAddr (h l : Byte) : Addr :=
  h ++ l

/-- `zext_16(b)`. -/
def zext (b : Byte) : Addr :=
  b.setWidth 16

/-- `sext_16(b)`: the two's-complement sign extension. -/
def sext (b : Byte) : Addr :=
  b.signExtend 16

/-- `v[i]`: bit `i` of a byte. -/
def bit (v : Byte) (i : Nat) : Bool :=
  v.getLsbD i

/-- A byte whose bit `i` is `b` and whose other bits are 0. -/
def bitAt (i : Nat) (b : Bool) : Byte :=
  if b then 1 <<< i else 0

end Sys2Proof.Machine
end

