-- ==== Sys2Proof/Config.lean ====
section
/-! DEFINITION. What a model of this hardware takes as a parameter (00_scope R9), and the free values: constants with no body, of
which nothing can be proved, for everything the spec leaves open (93_implementation_defined part 1). -/

namespace Sys2Proof

/-- `ILLEGAL_POLICY` (30_encoding R86): which undocumented opcodes are given a meaning. -/
inductive IllegalPolicy where
  | documentedOnly
  | stable
  | full
  deriving DecidableEq, Repr

/-- `REGION` (60_exceptions R331): the clock ratio and the number of scanlines. -/
inductive Region where
  | ntsc
  | pal
  deriving DecidableEq, Repr

/-- `POWERON_REGS` (00_scope R9, 92_eei_decisions D8): A, X and Y at power-on are zero, or free draws. -/
inductive PowerOnRegs where
  | zero
  | draw
  deriving DecidableEq, Repr

/-- The parameters that a running machine consults. They stand in State, no step changes them, and a statement about every state is a
statement about every value of them. -/
structure Params where
  /-- `ILLEGAL_POLICY`. -/
  policy : IllegalPolicy
  /-- `REGION`. -/
  region : Region
  /-- `MAGIC_ANE` (47_undocumented R264). -/
  magicAne : Byte
  /-- `MAGIC_LXA` (47_undocumented R265). -/
  magicLxa : Byte
  deriving DecidableEq, Repr

namespace Config

/-- `MAGIC_ANE`: OPEN, a constant of the chip (92_eei_decisions D18). Free value, log 7. -/
opaque magicAne : Byte

/-- `MAGIC_LXA`: OPEN, a constant of the chip (92_eei_decisions D18). Free value, log 7. -/
opaque magicLxa : Byte

/-- `RAM_INIT`, any 2,048 bytes (20_memory R68): what the RAM byte at an offset holds until it is written. Free value, log 3. -/
opaque ramInit : Nat → Byte

/-- What a byte of OAM holds until it is written; the spec gives no content. Free value, log 4. -/
opaque oamInit : Nat → Byte

/-- The draws of `POWERON_REGS = Draw` (10_state R48) for A, X and Y. Free values, log 21. -/
opaque drawA : Byte
@[inherit_doc drawA] opaque drawX : Byte
@[inherit_doc drawA] opaque drawY : Byte

/-- The byte a device register returns whose value is `any value` (93_implementation_defined row 15): the register's address and the
number of such reads before this one. Free value, log 8. -/
opaque deviceByte : Nat → Nat → Byte

/-- Does the 4-step frame sequence end at this APU tick? The exact cycle is APU internal (60_exceptions R325). Free value, log 9. -/
opaque frameSequenceEnds : Nat → Bool

/-- Does a DMC sample end at this APU tick? APU internal (60_exceptions R326). Free value, log 9. -/
opaque dmcSampleEnds : Nat → Bool

/-- Does the rendering work of this PPU tick set sprite0_hit? `any value` (93_implementation_defined row 16). Free value, log 10. -/
opaque sprite0Sets : Nat → Bool

/-- Does the rendering work of this PPU tick set sprite_overflow? Free value, log 10. -/
opaque spriteOverflowSets : Nat → Bool

/-- How much one access of PPUDATA adds to the PPU address, under a value of PPUCTRL (20_memory R60 says only that it increments).
Free value, log 11. -/
opaque ppuAddrIncrement : Byte → BitVec 16

end Config

/-- The default column of 00_scope R9 (30_encoding R86, 92_eei_decisions D17): policy Stable, region NTSC; the two magic constants are OPEN there
and are the chip's own (log 7). -/
def Params.byDefault : Params :=
  { policy := .stable, region := .ntsc, magicAne := Config.magicAne, magicLxa := Config.magicLxa }

/-- The default of `POWERON_REGS` (00_scope R9, 92_eei_decisions D8). -/
def PowerOnRegs.byDefault : PowerOnRegs :=
  .zero

end Sys2Proof
end

