-- ==== Sys2Proof/Machine/State.lean ====
section
/-! DEFINITION. The machine's state as plain data, its faults and refusals, and the state right after reset. The grouping is the
spec's: a CPU record and a Bus record of RAM, open bus, devices and mapper, owned by the scheduler (10_state R47). -/

namespace Sys2Proof.Machine

/-- A byte store: (address, byte) pairs in ONE canonical form, addresses strictly rising and no entry equal to what an unlisted
address reads as (`Memory.wf` in Machine/Memory.lean). -/
abbrev Memory := List Host.Cell

/-- The processor status P: six independent flags, no stored break bit and no stored bit 5 (10_state R27). -/
structure Flags where
  /-- Carry (R28). -/
  c : Bool
  /-- Zero (R29). -/
  z : Bool
  /-- Interrupt disable (R30). -/
  i : Bool
  /-- Decimal: stored and pushed, without effect on any computation (R31). -/
  d : Bool
  /-- Overflow (R32). -/
  v : Bool
  /-- Negative (R33). -/
  n : Bool
  deriving DecidableEq, Repr

/-- The complete CPU state (10_state R47). -/
structure CpuState where
  /-- The accumulator A (R21). -/
  a : Byte
  /-- The index register X (R22). -/
  x : Byte
  /-- The index register Y (R23). -/
  y : Byte
  /-- The stack pointer S; the stack is page $01 (R24). -/
  s : Byte
  /-- The program counter PC (R26). -/
  pc : Addr
  /-- The processor status P (R27). -/
  p : Flags
  /-- `nmi_pending` (R37). -/
  nmiPending : Bool
  /-- `nmi_prev`: the NMI line at the edge detector's previous sample (R38). -/
  nmiPrev : Bool
  /-- `reset_pending` (R39). -/
  resetPending : Bool
  /-- `i_poll`: the value of I that the next interrupt poll uses (R41). -/
  iPoll : Bool
  /-- `poll_suppress`: the next step runs its instruction without a poll (R42). -/
  pollSuppress : Bool
  /-- `jammed`: a JAM opcode has executed (R43). -/
  jammed : Bool
  /-- `cycles`: CPU cycles since power-on (R44). -/
  cycles : Nat
  deriving DecidableEq, Repr

/-- The PPU as the CPU observes it (00_scope R5; 20_memory R60; 60_exceptions R319 to R323). -/
structure PpuState where
  /-- PPUCTRL ($2000); bit 7 enables the NMI line (R320). -/
  ctrl : Byte
  /-- PPUMASK ($2001); bits 3 and 4 enable rendering (R323). -/
  mask : Byte
  /-- `vblank_flag`, bit 7 of PPUSTATUS (R319). -/
  vblank : Bool
  /-- `sprite0_hit`, bit 6 of PPUSTATUS (R321). -/
  sprite0Hit : Bool
  /-- `sprite_overflow`, bit 5 of PPUSTATUS (R321). -/
  spriteOverflow : Bool
  /-- The address-write toggle of PPUSCROLL and PPUADDR (R321). -/
  toggle : Bool
  /-- OAMADDR ($2003). -/
  oamAddr : Byte
  /-- OAM, 256 bytes written through OAMDATA ($2004). -/
  oam : Memory
  /-- The first byte written to PPUSCROLL ($2005). -/
  scrollX : Byte
  /-- The second byte written to PPUSCROLL ($2005). -/
  scrollY : Byte
  /-- The PPU address, written twice through PPUADDR ($2006), incremented by every access of PPUDATA ($2007). -/
  addr : BitVec 16
  /-- The scanline, -1 (pre-render) to the region's last line (R323). -/
  scanline : Int
  /-- The dot, 0 to 340 (R323). -/
  dot : Nat
  /-- Is the current frame an odd one (R323)? -/
  oddFrame : Bool
  /-- How many frame-ready events have been signalled (R332). -/
  framesReady : Nat
  /-- PPU ticks since power-on; the index of the free PPU events of Config. -/
  ticks : Nat
  deriving DecidableEq, Repr

/-- The APU as the CPU observes it (20_memory R61; 60_exceptions R325, R326). -/
structure ApuState where
  /-- The bytes last written to $4000 to $4013 but $4010 (70_reset R369). -/
  channels : Memory
  /-- The byte last written to $4010: bit 7 enables the DMC IRQ, bit 6 is the loop bit (R326). -/
  dmcFlags : Byte
  /-- The byte last written to $4015, the channel enables. -/
  enable : Byte
  /-- The byte last written to $4017: bit 7 selects 5-step mode, bit 6 inhibits the frame IRQ (R325). -/
  frameCounter : Byte
  /-- `apu_frame_irq` (R325). -/
  frameIrq : Bool
  /-- `dmc_irq` (R326). -/
  dmcIrq : Bool
  /-- APU ticks since power-on; the index of the free APU events of Config. -/
  ticks : Nat
  deriving DecidableEq, Repr

/-- `PRG_SIZE` of mapper 0: 16,384 or 32,768 bytes (20_memory R67). -/
inductive PrgSize where
  | k16
  | k32
  deriving DecidableEq, Repr

/-- The cartridge: mapper 0, the one mapper the spec gives (20_memory R67). -/
structure Mapper where
  prgSize : PrgSize
  /-- The PRG ROM image, by offset from 0; an unlisted byte is $00. -/
  prg : Memory
  deriving DecidableEq, Repr

inductive AccessKind where
  | read
  | write
  deriving DecidableEq, Repr

/-- One bus access as a step's observer sees it (00_scope R18). -/
structure BusAccess where
  addr : Addr
  kind : AccessKind
  value : Byte
  deriving DecidableEq, Repr

/-- The Bus and everything behind it (20_memory R52, R53, R58). -/
structure Bus where
  /-- Internal RAM by offset 0 to $07FF (R59); an unlisted byte is `Config.ramInit` of its offset (R68). -/
  ram : Memory
  /-- `open_bus`: the last value driven on the data bus (R62). -/
  openBus : Byte
  ppu : PpuState
  apu : ApuState
  mapper : Mapper
  /-- The controller strobe, bit 0 of the last $4016 write (R61). -/
  strobe : Bool
  /-- The page of the last $4014 write of this step, an OAM DMA request (60_exceptions R328). -/
  dmaRequest : Option Byte
  /-- The accesses of the current or last step, newest first (00_scope R18). -/
  log : List BusAccess
  /-- The MODEL's own counter: reads so far of device registers whose byte the spec leaves free. -/
  deviceReads : Nat
  deriving DecidableEq, Repr

/-- Everything the spec gives the machine, and the model's parameters. -/
structure State where
  cpu : CpuState
  bus : Bus
  /-- `dot_frac`: the PAL clock's remainder, 0 to 4 (60_exceptions R331). -/
  dotFrac : Nat
  /-- The cycle count that the last step returned, the `n` of `Ok(n)` (60_exceptions R301, R329). -/
  stepCycles : Nat
  /-- The machine's fixed parameters. -/
  params : Params
  deriving DecidableEq, Repr

/-- The reasons a step can stop with a fault. -/
inductive Fault where
  /-- Raised by `step` when the PPU position is outside its bounds: the spec's `InvariantViolation` (60_exceptions R301, R323, R336),
  "surfaced immediately, never silently clamped". Safe: no run from reset reaches it (the position invariant is kept by every step). -/
  | positionOutOfBounds
  deriving DecidableEq, Repr

/-- The reasons a step can be refused. -/
inductive Refusal where
  /-- Raised by an arm of `exec` that gives its instruction no meaning yet (no arm does). Safe. -/
  | notModelled (mnemonic : String)
  /-- Raised by `step` for an opcode that `ILLEGAL_POLICY` gives no meaning: the spec's `Refused(opcode, a)`, with the opcode and its address
  (30_encoding R87, 60_exceptions R301). Safe: the model stops where the chip goes on. -/
  | illegalOpcode (opcode : Byte) (address : Addr)
  deriving DecidableEq, Repr

/-- What one instruction or one step ends in. -/
abbrev Result := Host.Outcome State Fault Refusal

/-- The flags after reset: I = 1, every other flag 0 (10_state R48). -/
def Flags.reset : Flags :=
  { c := false, z := false, i := true, d := false, v := false, n := false }

/-- The CPU right after the reset sequence that follows power-on (10_state R48). PC is the RESET vector's content, which for the empty
cartridge is $0000 (DESIGN CHOICE, log 2 and 5). -/
def CpuState.reset : CpuState :=
  { a := 0, x := 0, y := 0, s := 0xFD, pc := 0x0000, p := Flags.reset, nmiPending := false, nmiPrev := false, resetPending := false,
    iPoll := true, pollSuppress := true, jammed := false, cycles := 7 }

/-- The PPU before the first step (70_reset R360); the registers whose value the spec does not give are zero (DESIGN CHOICE, log 12). -/
def PpuState.powerOn : PpuState :=
  { ctrl := 0, mask := 0, vblank := false, sprite0Hit := false, spriteOverflow := false, toggle := false, oamAddr := 0, oam := [],
    scrollX := 0, scrollY := 0, addr := 0, scanline := 0, dot := 0, oddFrame := false, framesReady := 0, ticks := 0 }

/-- The APU before the first step (70_reset R360); the registers whose value the spec does not give are zero (DESIGN CHOICE, log 12). -/
def ApuState.powerOn : ApuState :=
  { channels := [], dmcFlags := 0, enable := 0, frameCounter := 0, frameIrq := false, dmcIrq := false, ticks := 0 }

/-- A mapper 0 cartridge with nothing in it, a 16 KiB image of zeros (DESIGN CHOICE, log 5). -/
def Mapper.empty : Mapper :=
  { prgSize := .k16, prg := [] }

/-- The parameters of `State.reset`: the spec's defaults (00_scope R9), but for the policy, which is the one of 30_encoding R86 under which every
opcode executes (DESIGN CHOICE, log 6; the spec's default is Stable, `Params.byDefault`). -/
def Params.reset : Params :=
  { Params.byDefault with policy := .full }

/-- The accesses of the reset step that follows power-on, newest first (70_reset R362). -/
def Bus.resetLog : List BusAccess :=
  [⟨0xFFFD, .read, 0⟩, ⟨0xFFFC, .read, 0⟩,
   ⟨0x01FE, .read, Config.ramInit 0x1FE⟩, ⟨0x01FF, .read, Config.ramInit 0x1FF⟩, ⟨0x0100, .read, Config.ramInit 0x100⟩,
   ⟨0x0000, .read, Config.ramInit 0⟩, ⟨0x0000, .read, Config.ramInit 0⟩]

/-- The machine right after reset with an NTSC chip's parameters: the state in which the power-on reset sequence leaves it (10_state R48, 70_reset
R360 and R362), with the 21 PPU ticks and 7 APU ticks of that step run. -/
def State.resetUnder (params : Params) : State :=
  { cpu := CpuState.reset
    bus :=
      { ram := []
        openBus := 0
        ppu := { PpuState.powerOn with dot := 21, ticks := 21 }
        apu := { ApuState.powerOn with ticks := 7 }
        mapper := Mapper.empty
        strobe := false
        dmaRequest := none
        log := Bus.resetLog
        deviceReads := 0 }
    dotFrac := 0
    stepCycles := 7
    params := params }

/-- The machine right after reset, every opcode with a meaning (log 6). -/
def State.reset : State :=
  State.resetUnder Params.reset

/-- The machine right after reset under the spec's default parameters (00_scope R9). -/
def State.resetByDefault : State :=
  State.resetUnder Params.byDefault

end Sys2Proof.Machine
end

