-- ==== Sys2Proof/Machine/Memory.lean ====
section
/-! DEFINITION. Byte stores. A store is a list of (address, byte) pairs in one canonical form, read and written against a default: what an
unlisted address reads as. -/

namespace Sys2Proof.Machine

/-- The listed byte of an address, if it is listed. -/
def Memory.find : Memory → Nat → Option Byte
  | [], _ => none
  | (k, v) :: rest, a => if k = a then some v else Memory.find rest a

/-- Reading: the listed byte, or what an unlisted address reads as. -/
def Memory.read (unlisted : Nat → Byte) (m : Memory) (a : Nat) : Byte :=
  (m.find a).getD (unlisted a)

/-- Listing a byte at its place in the rising order, in place of an older entry of the same address. -/
def Memory.put : Memory → Nat → Byte → Memory
  | [], a, v => [(a, v)]
  | (k, w) :: rest, a, v =>
    if a < k then (a, v) :: (k, w) :: rest
    else if a = k then (a, v) :: rest
    else (k, w) :: Memory.put rest a v

/-- Removing the entry of an address. -/
def Memory.erase : Memory → Nat → Memory
  | [], _ => []
  | (k, w) :: rest, a => if k = a then rest else (k, w) :: Memory.erase rest a

/-- Writing keeps the canonical form: writing what an unlisted address reads as removes the entry. -/
def Memory.write (unlisted : Nat → Byte) (m : Memory) (a : Nat) (v : Byte) : Memory :=
  if v = unlisted a then m.erase a else m.put a v

/-- The canonical form of a store of `size` bytes: addresses strictly rising and inside the store, no entry equal to what an unlisted
address reads as. -/
abbrev Memory.wf (unlisted : Nat → Byte) (size : Nat) (m : Memory) : Prop :=
  List.Pairwise (fun c d => c.1 < d.1) m ∧ ∀ c ∈ m, c.1 < size ∧ c.2 ≠ unlisted c.1

/-- The default of a store whose unlisted bytes are $00: the PRG image (log 5) and the APU channel registers (log 12). -/
def zeroFill : Nat → Byte :=
  fun _ => 0

end Sys2Proof.Machine
end

