-- ==== Sys2Proof/Machine/Apu.lean ====
section
/-! DEFINITION. The APU as the CPU sees it: its registers' writes, the read of $4015 and one APU tick (20_memory R61; 60_exceptions R325,
R326, R330). -/

namespace Sys2Proof.Machine

/-- The APU and I/O registers, $4000 to $4017 (20_memory R61). `channel` is one of the write-only channel registers. -/
inductive IoReg where
  | channel (a : Nat)
  | dmcFlags
  | oamDma
  | status
  | pad1
  | pad2
  deriving DecidableEq, Repr

/-- The register at an address of $4000 to $4017. -/
def IoReg.ofAddress (a : Nat) : IoReg :=
  if a = 0x4010 then .dmcFlags
  else if a = 0x4014 then .oamDma
  else if a = 0x4015 then .status
  else if a = 0x4016 then .pad1
  else if a = 0x4017 then .pad2
  else .channel a

/-- The byte a read of $4015 returns: bit 7 the DMC IRQ flag, bit 6 the frame IRQ flag (60_exceptions R325, R326), below them the channel
status and an unstated bit, which are free (log 8). -/
def ApuState.statusByte (u : ApuState) (free : Byte) : Byte :=
  bitAt 7 u.dmcIrq ||| bitAt 6 u.frameIrq ||| (free &&& 0x3F)

/-- A read of $4015 clears the frame IRQ flag and leaves the DMC IRQ flag (60_exceptions R325, R326). -/
def ApuState.afterStatusRead (u : ApuState) : ApuState :=
  { u with frameIrq := false }

/-- A write of a channel register only updates the stored value (70_reset R369). -/
def ApuState.writeChannel (u : ApuState) (a : Nat) (v : Byte) : ApuState :=
  { u with channels := u.channels.write zeroFill a v }

/-- A write of $4010; with bit 7 = 0 it clears the DMC IRQ flag (60_exceptions R326). -/
def ApuState.writeDmcFlags (u : ApuState) (v : Byte) : ApuState :=
  { u with dmcFlags := v, dmcIrq := u.dmcIrq && bit v 7 }

/-- Any write of $4015 clears the DMC IRQ flag (60_exceptions R326). -/
def ApuState.writeEnable (u : ApuState) (v : Byte) : ApuState :=
  { u with enable := v, dmcIrq := false }

/-- A write of $4017; with bit 6 = 1 it clears the frame IRQ flag (60_exceptions R325). -/
def ApuState.writeFrameCounter (u : ApuState) (v : Byte) : ApuState :=
  { u with frameCounter := v, frameIrq := u.frameIrq && !bit v 6 }

/-- `apu_tick()` as the CPU may observe it (60_exceptions R325, R326, R330): the end of a 4-step sequence sets the frame IRQ flag unless
bit 7 or bit 6 of $4017 is 1; the end of a sample sets the DMC IRQ flag if bit 7 of $4010 is 1 and its loop bit 6 is 0. When these ends
come is free (log 9). -/
def ApuState.tick (u : ApuState) : ApuState :=
  { u with
    frameIrq := u.frameIrq || (!bit u.frameCounter 7 && !bit u.frameCounter 6 && Config.frameSequenceEnds u.ticks)
    dmcIrq := u.dmcIrq || (bit u.dmcFlags 7 && !bit u.dmcFlags 6 && Config.dmcSampleEnds u.ticks)
    ticks := u.ticks + 1 }

end Sys2Proof.Machine
end

