-- ==== Sys2Proof/Machine/Cartridge.lean ====
section
/-! DEFINITION. The cartridge as the CPU sees it: mapper 0's reads, writes, IRQ and scanline tick (20_memory R63, R67; 60_exceptions R324),
and loading a cartridge, with its `ConfigurationError` (60_exceptions R302). -/

namespace Sys2Proof.Machine

/-- `PRG_SIZE` in bytes. -/
def PrgSize.bytes : PrgSize → Nat
  | .k16 => 16384
  | .k32 => 32768

/-- What the mapper drives for a read in cartridge space: the PRG byte at $8000 to $FFFF, nothing at $4018 to $7FFF (20_memory R67). -/
def Mapper.drive (m : Mapper) (a : Addr) : Option Byte :=
  if a.toNat < 0x8000 then none
  else some (m.prg.read zeroFill ((a.toNat - 0x8000) % m.prgSize.bytes))

/-- A write in cartridge space: mapper 0 has no register and a ROM ignores it (20_memory R53, R67). -/
def Mapper.write (m : Mapper) (_a : Addr) (_v : Byte) : Mapper :=
  m

/-- `mapper_irq`: mapper 0 never asserts IRQ (60_exceptions R324). -/
def Mapper.irq (_m : Mapper) : Bool :=
  false

/-- `mapper.scanline_tick()`: mapper 0 has no scanline counter (60_exceptions R323, R324). -/
def Mapper.scanlineTick (m : Mapper) : Mapper :=
  m

/-- `ConfigurationError` (60_exceptions R302): fatal at load time, before any step. -/
inductive ConfigurationError where
  /-- The cartridge asks for a mapper the model does not have. -/
  | unsupportedMapper (number : Nat)
  /-- A PRG image that is neither 16,384 nor 32,768 bytes long. -/
  | invalidBankSize (size : Nat)
  deriving DecidableEq, Repr

/-- Storing bytes at rising addresses from `a`. -/
def Memory.load (unlisted : Nat → Byte) : Memory → Nat → List Byte → Memory
  | m, _, [] => m
  | m, a, v :: rest => Memory.load unlisted (m.write unlisted a v) (a + 1) rest

/-- Building the mapper from a cartridge's mapper number and PRG image (60_exceptions R302; 92_eei_decisions D40). -/
def Cartridge.load (number : Nat) (image : List Byte) : Except ConfigurationError Mapper :=
  if number ≠ 0 then .error (.unsupportedMapper number)
  else if image.length = 16384 then .ok { prgSize := .k16, prg := Memory.load zeroFill [] 0 image }
  else if image.length = 32768 then .ok { prgSize := .k32, prg := Memory.load zeroFill [] 0 image }
  else .error (.invalidBankSize image.length)

end Sys2Proof.Machine
end

