-- ==== Sys2Proof/Machine/Ppu.lean ====
section
/-! DEFINITION. The PPU as the CPU sees it: its eight registers, its position and one PPU tick (20_memory R60; 60_exceptions R319 to R323). -/

namespace Sys2Proof.Machine

/-- The eight PPU registers, $2000 to $2007 (20_memory R60). -/
inductive PpuReg where
  | ctrl
  | mask
  | status
  | oamAddr
  | oamData
  | scroll
  | addr
  | data
  deriving DecidableEq, Repr

/-- The register of an index `a & $0007`. -/
def PpuReg.ofIndex : Nat → PpuReg
  | 0 => .ctrl
  | 1 => .mask
  | 2 => .status
  | 3 => .oamAddr
  | 4 => .oamData
  | 5 => .scroll
  | 6 => .addr
  | _ => .data

/-- `nmi_line = vblank_flag & PPUCTRL[7]` (60_exceptions R304). -/
def PpuState.nmiLine (p : PpuState) : Bool :=
  p.vblank && bit p.ctrl 7

/-- The byte a read of PPUSTATUS returns: the three flags over the low five bits of open bus (60_exceptions R321). -/
def PpuState.statusByte (p : PpuState) (openBus : Byte) : Byte :=
  bitAt 7 p.vblank ||| bitAt 6 p.sprite0Hit ||| bitAt 5 p.spriteOverflow ||| (openBus &&& 0x1F)

/-- The effect of a read of PPUSTATUS: the vertical-blank flag and the write toggle are cleared (60_exceptions R321). -/
def PpuState.afterStatusRead (p : PpuState) : PpuState :=
  { p with vblank := false, toggle := false }

/-- An access of PPUDATA increments the PPU address (20_memory R60), by a free amount (log 11). -/
def PpuState.afterDataAccess (p : PpuState) : PpuState :=
  { p with addr := p.addr + Config.ppuAddrIncrement p.ctrl }

/-- A write of OAMDATA stores into OAM and increments OAMADDR (20_memory R60; 60_exceptions R328). -/
def PpuState.writeOam (p : PpuState) (v : Byte) : PpuState :=
  { p with oam := p.oam.write Config.oamInit p.oamAddr.toNat v, oamAddr := p.oamAddr + 1 }

/-- One of the two writes of PPUSCROLL, chosen and flipped by the toggle (20_memory R60; the order is PRESUMED, log 11). -/
def PpuState.writeScroll (p : PpuState) (v : Byte) : PpuState :=
  if p.toggle then { p with scrollY := v, toggle := false } else { p with scrollX := v, toggle := true }

/-- One of the two writes of PPUADDR, high byte first, chosen and flipped by the toggle (20_memory R60; the order is PRESUMED, log 11). -/
def PpuState.writeAddr (p : PpuState) (v : Byte) : PpuState :=
  if p.toggle then { p with addr := mkAddr (hi p.addr) v, toggle := false }
  else { p with addr := mkAddr v (lo p.addr), toggle := true }

/-- A CPU write of a PPU register (20_memory R60). PPUSTATUS is read-only: its write is ignored (R69). The byte written to PPUDATA goes to
the PPU's own address space, outside the spec (00_scope R7). A write during active rendering is applied, not rejected (R60; 70_reset R369), with the
same effect as at any other time: the "often corrupting" effect that these rules want is not given by the spec (DESIGN CHOICE, log 28). -/
def PpuState.writeReg (p : PpuState) (r : PpuReg) (v : Byte) : PpuState :=
  match r with
  | .ctrl => { p with ctrl := v }
  | .mask => { p with mask := v }
  | .status => p
  | .oamAddr => { p with oamAddr := v }
  | .oamData => p.writeOam v
  | .scroll => p.writeScroll v
  | .addr => p.writeAddr v
  | .data => p.afterDataAccess

/-- `LAST_LINE` (60_exceptions R323). -/
def lastLine : Region → Int
  | .ntsc => 260
  | .pal => 310

/-- The bounds of the PPU position (60_exceptions R323, R336). -/
abbrev PpuState.inBounds (region : Region) (p : PpuState) : Prop :=
  -1 ≤ p.scanline ∧ p.scanline ≤ lastLine region ∧ p.dot ≤ 340

/-- Rendering is enabled: PPUMASK bit 3 or 4 (60_exceptions R323). -/
def PpuState.rendering (p : PpuState) : Bool :=
  bit p.mask 3 || bit p.mask 4

/-- Is this dot the last of its scanline? Dot 340; and dot 339 of the pre-render line of an odd NTSC frame with rendering enabled, whose
last dot the hardware skips (60_exceptions R323; log 13). -/
def PpuState.atLineEnd (region : Region) (p : PpuState) : Bool :=
  decide (p.dot = 340) ||
    (decide (region = .ntsc) && p.oddFrame && p.rendering && decide (p.scanline = -1) && decide (p.dot = 339))

/-- The vertical-blank flag is set at (241, 1), and the three status flags are cleared at (-1, 1) (60_exceptions R319, R323). -/
def PpuState.raiseFlags (p : PpuState) : PpuState :=
  if p.scanline = 241 ∧ p.dot = 1 then { p with vblank := true }
  else if p.scanline = -1 ∧ p.dot = 1 then { p with vblank := false, sprite0Hit := false, spriteOverflow := false }
  else p

/-- The rendering work of one tick, outside the spec, as the CPU may observe it: free events may set the sprite flags (log 10). -/
def PpuState.render (p : PpuState) : PpuState :=
  { p with
    sprite0Hit := p.sprite0Hit || Config.sprite0Sets p.ticks
    spriteOverflow := p.spriteOverflow || Config.spriteOverflowSets p.ticks }

/-- The wrap at the end of a scanline; past the last line the frame is ready and the next begins at line -1 (60_exceptions R323, R332). -/
def PpuState.nextLine (region : Region) (p : PpuState) : PpuState :=
  if p.scanline = lastLine region then
    { p with dot := 0, scanline := -1, framesReady := p.framesReady + 1, oddFrame := !p.oddFrame }
  else { p with dot := 0, scanline := p.scanline + 1 }

/-- `ppu_tick()` (60_exceptions R323), the mapper's part left to `Bus.ppuTick`. -/
def PpuState.tick (region : Region) (p : PpuState) : PpuState :=
  let q := p.raiseFlags.render
  let r := if q.atLineEnd region then q.nextLine region else { q with dot := q.dot + 1 }
  { r with ticks := r.ticks + 1 }

end Sys2Proof.Machine
end

