-- ==== Sys2Proof/Machine/Bus.lean ====
section
/-! DEFINITION. The Bus: the address partition and the two access primitives `MemRead` and `MemWrite` with every device side effect
(20_memory R52, R53, R58 to R63), the debug read `Peek` (R66), and the byte of storage at an address. -/

namespace Sys2Proof.Machine

/-- What an address reaches (20_memory R58). -/
inductive Target where
  /-- Internal RAM, by offset 0 to $07FF. -/
  | ram (offset : Nat)
  | ppu (reg : PpuReg)
  | io (reg : IoReg)
  /-- Cartridge space, routed to the mapper. -/
  | cartridge (a : Addr)
  deriving DecidableEq, Repr

/-- The bus partition (20_memory R58): four ranges that do not overlap and cover every address, with RAM mirrored every $0800 bytes
(R59) and the PPU registers every 8 (R60). -/
def route (a : Addr) : Target :=
  if a.toNat < 0x2000 then .ram (a.toNat % 0x800)
  else if a.toNat < 0x4000 then .ppu (PpuReg.ofIndex (a.toNat % 8))
  else if a.toNat < 0x4018 then .io (IoReg.ofAddress a.toNat)
  else .cartridge a

/-- A read of a register whose byte the spec leaves free (93_implementation_defined row 15): the byte, and the device having been read. -/
def Bus.freeRead (b : Bus) (register : Nat) : Byte × Bus :=
  (Config.deviceByte register b.deviceReads, { b with deviceReads := b.deviceReads + 1 })

/-- The byte a target drives on a read, or none, and what the read changes in the target (20_memory R52, R59 to R61, R65, R67). -/
def Bus.drive (b : Bus) : Target → Option Byte × Bus
  | .ram k => (some (b.ram.read Config.ramInit k), b)
  | .ppu .status => (some (b.ppu.statusByte b.openBus), { b with ppu := b.ppu.afterStatusRead })
  | .ppu .oamData =>
    let r := b.freeRead 0x2004
    (some r.1, r.2)
  | .ppu .data =>
    let r := b.freeRead 0x2007
    (some r.1, { r.2 with ppu := r.2.ppu.afterDataAccess })
  | .ppu .ctrl => (none, b)
  | .ppu .mask => (none, b)
  | .ppu .oamAddr => (none, b)
  | .ppu .scroll => (none, b)
  | .ppu .addr => (none, b)
  | .io .status =>
    let r := b.freeRead 0x4015
    (some (b.apu.statusByte r.1), { r.2 with apu := r.2.apu.afterStatusRead })
  | .io .pad1 =>
    let r := b.freeRead 0x4016
    (some r.1, r.2)
  | .io .pad2 =>
    let r := b.freeRead 0x4017
    (some r.1, r.2)
  | .io .dmcFlags => (none, b)
  | .io .oamDma => (none, b)
  | .io (.channel _) => (none, b)
  | .cartridge a => (b.mapper.drive a, b)

/-- `MemRead(addr, 1)` (20_memory R52): one bus read cycle. An undriven read returns `open_bus` and leaves it (R62). -/
def Bus.read (a : Addr) (b : Bus) : Byte × Bus :=
  let r := b.drive (route a)
  let v := r.1.getD b.openBus
  (v, { r.2 with openBus := v, log := ⟨a, .read, v⟩ :: b.log })

/-- What a write changes in its target (20_memory R53, R60, R61, R67; 60_exceptions R325, R326, R328). -/
def Bus.deliver (b : Bus) (v : Byte) : Target → Bus
  | .ram k => { b with ram := b.ram.write Config.ramInit k v }
  | .ppu r => { b with ppu := b.ppu.writeReg r v }
  | .io (.channel a) => { b with apu := b.apu.writeChannel a v }
  | .io .dmcFlags => { b with apu := b.apu.writeDmcFlags v }
  | .io .oamDma => { b with dmaRequest := some v }
  | .io .status => { b with apu := b.apu.writeEnable v }
  | .io .pad1 => { b with strobe := bit v 0 }
  | .io .pad2 => { b with apu := b.apu.writeFrameCounter v }
  | .cartridge a => { b with mapper := b.mapper.write a v }

/-- `MemWrite(addr, 1, v)` (20_memory R53): one bus write cycle; every write sets `open_bus` (R62). -/
def Bus.write (a : Addr) (v : Byte) (b : Bus) : Bus :=
  let d := b.deliver v (route a)
  { d with openBus := v, log := ⟨a, .write, v⟩ :: b.log }

/-- `Peek(addr)` (20_memory R66): what `MemRead` would return, with no state changed. -/
def Bus.peek (a : Addr) (b : Bus) : Byte :=
  (b.read a).1

/-- The byte of storage an address reaches, in RAM or in the PRG image; none for a device register and for an undriven address. -/
def Bus.byteAt (a : Addr) (b : Bus) : Option Byte :=
  match route a with
  | .ram k => some (b.ram.read Config.ramInit k)
  | .ppu _ => none
  | .io _ => none
  | .cartridge c => b.mapper.drive c

/-- `irq_line() = mapper_irq | apu_frame_irq | dmc_irq` (60_exceptions R305). -/
def Bus.irqLine (b : Bus) : Bool :=
  b.mapper.irq || b.apu.frameIrq || b.apu.dmcIrq

/-- One PPU tick on the Bus: the PPU moves, and at the end of a scanline the mapper is told (60_exceptions R323). -/
def Bus.ppuTick (region : Region) (b : Bus) : Bus :=
  { b with
    ppu := b.ppu.tick region
    mapper := if b.ppu.atLineEnd region then b.mapper.scanlineTick else b.mapper }

end Sys2Proof.Machine
end

