-- ==== Sys2Proof/Machine/Flags.lean ====
section
/-! DEFINITION. Every flag computation of the spec: `setNZ` (00_scope R12), the byte images `Pbyte` and `Pload` (10_state R33, R34), the
adder `AddC` and `Compare` (43_arithmetic_logic R170, R177), the shifts' results (44_shift_rotate) and the flags of BIT and ARR. -/

namespace Sys2Proof.Machine

/-- `setNZ(v)`: N is bit 7, Z says whether the byte is 0 (00_scope R12). -/
def Flags.setNZ (v : Byte) (p : Flags) : Flags :=
  { p with n := bit v 7, z := decide (v = 0) }

/-- `Pbyte(b)`: the pushed image with break bit `b`, bit 5 always 1 (10_state R33). -/
def Flags.pbyte (b : Bool) (p : Flags) : Byte :=
  bitAt 7 p.n ||| bitAt 6 p.v ||| bitAt 5 true ||| bitAt 4 b ||| bitAt 3 p.d ||| bitAt 2 p.i ||| bitAt 1 p.z ||| bitAt 0 p.c

/-- `Pload(v)`: all six flags from a pulled byte, bits 5 and 4 discarded (10_state R34). -/
def Flags.pload (v : Byte) : Flags :=
  { n := bit v 7, v := bit v 6, d := bit v 3, i := bit v 2, z := bit v 1, c := bit v 0 }

/-- The result byte of `AddC(a, m, c)` (43 R170): the exact sum, modulo 256. -/
def addByte (a m : Byte) (c : Bool) : Byte :=
  BitVec.ofNat 8 (a.toNat + m.toNat + c.toNat)

/-- The flags of `AddC(a, m, c)` (43 R170): C the unsigned carry, V the signed overflow, N and Z of the result; D is ignored. -/
def Flags.addC (a m : Byte) (c : Bool) (p : Flags) : Flags :=
  let r := addByte a m c
  { Flags.setNZ r p with
    c := decide (255 < a.toNat + m.toNat + c.toNat)
    v := bit ((a ^^^ r) &&& (m ^^^ r)) 7 }

/-- The flags of `Compare(r, v)` (43 R177): C is `r >= v`, N and Z of the difference. -/
def Flags.compare (r v : Byte) (p : Flags) : Flags :=
  { Flags.setNZ (r - v) p with c := decide (v.toNat ≤ r.toNat) }

/-- The flags of BIT (43 R176): Z of `A & v`, N and V from the operand. -/
def Flags.bitTest (a v : Byte) (p : Flags) : Flags :=
  { p with z := decide (a &&& v = 0), n := bit v 7, v := bit v 6 }

/-- The flags of ARR (47 R261): N and Z of the result, C its bit 6, V its bit 6 xor bit 5. -/
def Flags.arr (r : Byte) (p : Flags) : Flags :=
  { Flags.setNZ r p with c := bit r 6, v := bit r 6 ^^ bit r 5 }

/-- The flags after a shift or rotate: C the bit shifted out, N and Z of a byte (44 R200 to R203; 47 R251 to R253). -/
def Flags.shifted (out : Bool) (r : Byte) (p : Flags) : Flags :=
  { Flags.setNZ r p with c := out }

/-- ASL's result (44 R200). -/
def aslByte (v : Byte) : Byte :=
  v <<< 1

/-- LSR's result (44 R201). -/
def lsrByte (v : Byte) : Byte :=
  v >>> 1

/-- ROL's result with the carry before the instruction (44 R202). -/
def rolByte (c : Bool) (v : Byte) : Byte :=
  (v <<< 1) ||| bitAt 0 c

/-- ROR's result with the carry before the instruction (44 R203). -/
def rorByte (c : Bool) (v : Byte) : Byte :=
  (v >>> 1) ||| bitAt 7 c

end Sys2Proof.Machine
end

