-- ==== Sys2Proof/Machine/Ops.lean ====
section
/-! DEFINITION. The named operations that every meaning is written with: register updates, bus cycles, fetching, the stack, and taking an
interrupt and returning from one (00_scope R11, R12; 42_stack R160, R161; 60_exceptions R309). One bus cycle is one entry of the bus log. -/

namespace Sys2Proof.Machine

/-- Replacing the CPU record. -/
def State.withCpu (c : CpuState) (s : State) : State :=
  { s with cpu := c }

/-- Replacing the Bus record. -/
def State.withBus (b : Bus) (s : State) : State :=
  { s with bus := b }

/-- `pc <- target` (00_scope R11). -/
def State.setPc (a : Addr) (s : State) : State :=
  s.withCpu { s.cpu with pc := a }

/-- Replacing the status flags. -/
def State.setFlags (p : Flags) (s : State) : State :=
  s.withCpu { s.cpu with p := p }

/-- `MemRead(addr, 1)`: one read cycle. -/
def State.read (a : Addr) (s : State) : Byte × State :=
  let r := s.bus.read a
  (r.1, s.withBus r.2)

/-- `DummyRead(addr)`: a read cycle whose byte is discarded; a real bus cycle (00_scope R11; 40_addressing R117). -/
def State.dummyRead (a : Addr) (s : State) : State :=
  (s.read a).2

/-- `MemWrite(addr, 1, v)`: one write cycle. -/
def State.write (a : Addr) (v : Byte) (s : State) : State :=
  s.withBus (s.bus.write a v)

/-- `FetchByte()`: the byte at PC, PC advanced modulo 65536 (40_addressing R101). -/
def State.fetchByte (s : State) : Byte × State :=
  let r := s.read s.cpu.pc
  (r.1, r.2.setPc (r.2.cpu.pc + 1))

/-- The second cycle of implied and accumulator mode: the byte at PC is read and discarded, PC stays (40_addressing R102). -/
def State.idle (s : State) : State :=
  s.dummyRead s.cpu.pc

/-- `addr($01, S)` (10_state R24). -/
def CpuState.stackAddr (c : CpuState) : Addr :=
  mkAddr 0x01 c.s

/-- `Push(v)`: a write at `addr($01, S)`, then `S <- u8(S - 1)` (42_stack R160). -/
def State.push (v : Byte) (s : State) : State :=
  let t := s.write s.cpu.stackAddr v
  t.withCpu { t.cpu with s := t.cpu.s - 1 }

/-- `Pull()`: `S <- u8(S + 1)`, then a read at `addr($01, S)` (42_stack R161). -/
def State.pull (s : State) : Byte × State :=
  let t := s.withCpu { s.cpu with s := s.cpu.s + 1 }
  t.read t.cpu.stackAddr

/-- Pushing a 16-bit address, high byte first (20_memory R54). -/
def State.pushAddr (a : Addr) (s : State) : State :=
  (s.push (hi a)).push (lo a)

/-- Pulling a 16-bit address, low byte first. -/
def State.pullAddr (s : State) : Addr × State :=
  let l := s.pull
  let h := l.2.pull
  (mkAddr h.1 l.1, h.2)

/-- Loading PC from a vector, low byte first (20_memory R64). -/
def State.loadVector (vector : Addr) (s : State) : State :=
  let l := s.read vector
  let h := l.2.read (vector + 1)
  h.2.setPc (mkAddr h.1 l.1)

/-- TAKING AN INTERRUPT, the part that NMI, IRQ and BRK share (60_exceptions R309, R310; 45_control_transfer R223): PC high, PC low and the
status image with break bit `b` are pushed, I becomes 1 and no other flag changes, PC is loaded from the vector, and `i_poll` and
`poll_suppress` become 1. -/
def State.enterInterrupt (b : Bool) (vector : Addr) (s : State) : State :=
  let pushed := (s.pushAddr s.cpu.pc).push (s.cpu.p.pbyte b)
  let masked := pushed.setFlags { pushed.cpu.p with i := true }
  let t := masked.loadVector vector
  t.withCpu { t.cpu with iPoll := true, pollSuppress := true }

/-- RETURNING FROM AN INTERRUPT (45_control_transfer R224; 60_exceptions R313): after the dummy read at the old S, the six flags, PC low
and PC high are pulled, PC is not advanced, and the restored I is seen by the very next poll. -/
def State.leaveInterrupt (s : State) : State :=
  let status := (s.dummyRead s.cpu.stackAddr).pull
  let flagged := status.2.setFlags (Flags.pload status.1)
  let target := flagged.pullAddr
  let t := target.2.setPc target.1
  t.withCpu { t.cpu with iPoll := t.cpu.p.i }

end Sys2Proof.Machine
end

