-- ==== Sys2Proof/Machine/Operands.lean ====
section
/-! DEFINITION. Every operand form: the addressing modes with all their bus cycles, and the three access classes (40_addressing R103 to R109,
R112, R118). The operand bytes have been fetched when a meaning runs; every later cycle of the mode is here. -/

namespace Sys2Proof.Machine

/-- A memory addressing mode with its operand bytes (30_encoding R81). -/
inductive AddrMode where
  | zp (b : Byte)
  | zpx (b : Byte)
  | zpy (b : Byte)
  | abs (lo hi : Byte)
  | abx (lo hi : Byte)
  | aby (lo hi : Byte)
  | izx (b : Byte)
  | izy (b : Byte)
  deriving DecidableEq, Repr

/-- The operand of a read-class instruction: an immediate byte or a memory operand. -/
inductive Operand where
  | imm (b : Byte)
  | mem (m : AddrMode)
  deriving DecidableEq, Repr

/-- What a mode's address formation yields (40_addressing R107, R109). -/
structure Effective where
  /-- `EA`. -/
  ea : Addr
  /-- `EAu`: the address before the carry into its high byte. -/
  uncorrected : Addr
  /-- The index addition carried out of the low byte. -/
  crossed : Bool
  /-- The mode is `abs,X`, `abs,Y` or `(zp),Y`, the modes with an uncorrected address. -/
  indexed : Bool
  /-- `H`: the high byte of the base address before indexing (47_undocumented R267). -/
  baseHigh : Byte
  deriving DecidableEq, Repr

/-- An address that no index is added to, or one whose addition stays in page $00. -/
def Effective.direct (a : Addr) : Effective :=
  { ea := a, uncorrected := a, crossed := false, indexed := false, baseHigh := hi a }

/-- `addr(h, l) + idx` with its page crossing (40_addressing R107, R109). -/
def Effective.index (h l idx : Byte) : Effective :=
  { ea := mkAddr h l + zext idx
    uncorrected := mkAddr h (l + idx)
    crossed := decide (255 < l.toNat + idx.toNat)
    indexed := true
    baseHigh := h }

/-- The two bytes of a zero-page pointer, read at `p` and `u8(p + 1)` (20_memory R57; 40_addressing R108, R109): low byte, high byte. -/
def State.readPointer (p : Byte) (s : State) : (Byte × Byte) × State :=
  let l := s.read (zext p)
  let h := l.2.read (zext (p + 1))
  ((l.1, h.1), h.2)

/-- Forming the effective address, with the bus cycles of the mode that come before the access class's own (40_addressing R104 to R109). -/
def State.resolve (m : AddrMode) (s : State) : Effective × State :=
  match m with
  | .zp b => (Effective.direct (zext b), s)
  | .zpx b => (Effective.direct (zext (b + s.cpu.x)), s.dummyRead (zext b))
  | .zpy b => (Effective.direct (zext (b + s.cpu.y)), s.dummyRead (zext b))
  | .abs l h => (Effective.direct (mkAddr h l), s)
  | .abx l h => (Effective.index h l s.cpu.x, s)
  | .aby l h => (Effective.index h l s.cpu.y, s)
  | .izx b =>
    let r := (s.dummyRead (zext b)).readPointer (b + s.cpu.x)
    (Effective.direct (mkAddr r.1.2 r.1.1), r.2)
  | .izy b =>
    let r := s.readPointer b
    (Effective.index r.1.2 r.1.1 s.cpu.y, r.2)

/-- The cycle a read-class instruction spends at the uncorrected address: only when a page is crossed (40_addressing R107, R109). -/
def State.fixupRead (e : Effective) (s : State) : State :=
  if e.crossed then s.dummyRead e.uncorrected else s

/-- The cycle a write or read-modify-write instruction spends at the uncorrected address: always (40_addressing R107, R109). -/
def State.fixupWrite (e : Effective) (s : State) : State :=
  if e.indexed then s.dummyRead e.uncorrected else s

/-- The read class at a memory operand: `v <- MemRead(EA, 1)` (40_addressing R112). -/
def State.load (m : AddrMode) (s : State) : Byte × State :=
  let e := s.resolve m
  (e.2.fixupRead e.1).read e.1.ea

/-- `Operand()`: the byte a read-class instruction obtains (40_addressing R118). -/
def State.operand (o : Operand) (s : State) : Byte × State :=
  match o with
  | .imm b => (b, s)
  | .mem m => s.load m

/-- `Store(r)`: the write class (40_addressing R112, R118); the target is never read. -/
def State.store (m : AddrMode) (v : Byte) (s : State) : State :=
  let e := s.resolve m
  (e.2.fixupWrite e.1).write e.1.ea v

/-- `Modify(f)`: the read-modify-write class (40_addressing R112, R118): a read, a write of the unmodified byte, a write of the new one.
It yields the unmodified byte. -/
def State.modify (m : AddrMode) (f : Byte → Byte) (s : State) : Byte × State :=
  let e := s.resolve m
  let r := (e.2.fixupWrite e.1).read e.1.ea
  (r.1, (r.2.write e.1.ea r.1).write e.1.ea (f r.1))

/-- The value that SHA, SHX, SHY and TAS write (47_undocumented R267): `r & u8(H + 1)`. -/
def Effective.highMasked (e : Effective) (r : Byte) : Byte :=
  r &&& (e.baseHigh + 1)

/-- The address that SHA, SHX, SHY and TAS write (47_undocumented R267): when a page is crossed, the value replaces its high byte. -/
def Effective.highAddr (e : Effective) (r : Byte) : Addr :=
  if e.crossed then mkAddr (e.highMasked r) (lo e.ea) else e.ea

/-- The common rule of SHA, SHX, SHY and TAS (47_undocumented R267): the dummy read at the uncorrected address, then the write. -/
def State.storeHigh (m : AddrMode) (r : Byte) (s : State) : State :=
  let e := s.resolve m
  (e.2.dummyRead e.1.uncorrected).write (e.1.highAddr r) (e.1.highMasked r)

end Sys2Proof.Machine
end

