-- ==== Sys2Proof/Machine/Arithmetic.lean ====
section
/-! DEFINITION. Arithmetic, logic, compare, increment and decrement (43_arithmetic_logic R171 to R186): one operation per mnemonic, and one
meaning per constructor of `Instr`. -/

namespace Sys2Proof.Machine

/-- `A <- AddC(A, m, C)` (R170): the adder as ADC, SBC and the undocumented RRA, ISC and USBC use it. -/
def CpuState.adcByte (m : Byte) (c : CpuState) : CpuState :=
  { c with a := addByte c.a m c.p.c, p := c.p.addC c.a m c.p.c }

/-- ADC (R171). -/
def adcOp (o : Operand) (s : State) : Result :=
  let r := s.operand o
  .next (r.2.withCpu (r.2.cpu.adcByte r.1))

/-- SBC (R172): the operand complemented. -/
def sbcOp (o : Operand) (s : State) : Result :=
  let r := s.operand o
  .next (r.2.withCpu (r.2.cpu.adcByte (r.1 ^^^ 0xFF)))

/-- AND (R173). -/
def andOp (o : Operand) (s : State) : Result :=
  let r := s.operand o
  let a := r.2.cpu.a &&& r.1
  .next (r.2.withCpu { r.2.cpu with a := a, p := r.2.cpu.p.setNZ a })

/-- ORA (R174). -/
def oraOp (o : Operand) (s : State) : Result :=
  let r := s.operand o
  let a := r.2.cpu.a ||| r.1
  .next (r.2.withCpu { r.2.cpu with a := a, p := r.2.cpu.p.setNZ a })

/-- EOR (R175). -/
def eorOp (o : Operand) (s : State) : Result :=
  let r := s.operand o
  let a := r.2.cpu.a ^^^ r.1
  .next (r.2.withCpu { r.2.cpu with a := a, p := r.2.cpu.p.setNZ a })

/-- BIT (R176). -/
def bitOp (o : Operand) (s : State) : Result :=
  let r := s.operand o
  .next (r.2.setFlags (r.2.cpu.p.bitTest r.2.cpu.a r.1))

/-- CMP (R178). -/
def cmpOp (o : Operand) (s : State) : Result :=
  let r := s.operand o
  .next (r.2.setFlags (r.2.cpu.p.compare r.2.cpu.a r.1))

/-- CPX (R179). -/
def cpxOp (o : Operand) (s : State) : Result :=
  let r := s.operand o
  .next (r.2.setFlags (r.2.cpu.p.compare r.2.cpu.x r.1))

/-- CPY (R180). -/
def cpyOp (o : Operand) (s : State) : Result :=
  let r := s.operand o
  .next (r.2.setFlags (r.2.cpu.p.compare r.2.cpu.y r.1))

/-- INC (R181). -/
def incOp (m : AddrMode) (s : State) : Result :=
  let r := s.modify m (· + 1)
  .next (r.2.setFlags (r.2.cpu.p.setNZ (r.1 + 1)))

/-- DEC (R182). -/
def decOp (m : AddrMode) (s : State) : Result :=
  let r := s.modify m (· - 1)
  .next (r.2.setFlags (r.2.cpu.p.setNZ (r.1 - 1)))

/-- $61 ADC (zp,X) (R171). -/
def execAdcIzx (b : Byte) (s : State) : Result :=
  adcOp (.mem (.izx b)) s

/-- $65 ADC zp (R171). -/
def execAdcZp (b : Byte) (s : State) : Result :=
  adcOp (.mem (.zp b)) s

/-- $69 ADC imm (R171). -/
def execAdcImm (b : Byte) (s : State) : Result :=
  adcOp (.imm b) s

/-- $6D ADC abs (R171). -/
def execAdcAbs (lo hi : Byte) (s : State) : Result :=
  adcOp (.mem (.abs lo hi)) s

/-- $71 ADC (zp),Y (R171). -/
def execAdcIzy (b : Byte) (s : State) : Result :=
  adcOp (.mem (.izy b)) s

/-- $75 ADC zp,X (R171). -/
def execAdcZpx (b : Byte) (s : State) : Result :=
  adcOp (.mem (.zpx b)) s

/-- $79 ADC abs,Y (R171). -/
def execAdcAby (lo hi : Byte) (s : State) : Result :=
  adcOp (.mem (.aby lo hi)) s

/-- $7D ADC abs,X (R171). -/
def execAdcAbx (lo hi : Byte) (s : State) : Result :=
  adcOp (.mem (.abx lo hi)) s

/-- $E1 SBC (zp,X) (R172). -/
def execSbcIzx (b : Byte) (s : State) : Result :=
  sbcOp (.mem (.izx b)) s

/-- $E5 SBC zp (R172). -/
def execSbcZp (b : Byte) (s : State) : Result :=
  sbcOp (.mem (.zp b)) s

/-- $E9 SBC imm (R172). -/
def execSbcImm (b : Byte) (s : State) : Result :=
  sbcOp (.imm b) s

/-- $ED SBC abs (R172). -/
def execSbcAbs (lo hi : Byte) (s : State) : Result :=
  sbcOp (.mem (.abs lo hi)) s

/-- $F1 SBC (zp),Y (R172). -/
def execSbcIzy (b : Byte) (s : State) : Result :=
  sbcOp (.mem (.izy b)) s

/-- $F5 SBC zp,X (R172). -/
def execSbcZpx (b : Byte) (s : State) : Result :=
  sbcOp (.mem (.zpx b)) s

/-- $F9 SBC abs,Y (R172). -/
def execSbcAby (lo hi : Byte) (s : State) : Result :=
  sbcOp (.mem (.aby lo hi)) s

/-- $FD SBC abs,X (R172). -/
def execSbcAbx (lo hi : Byte) (s : State) : Result :=
  sbcOp (.mem (.abx lo hi)) s

/-- $21 AND (zp,X) (R173). -/
def execAndIzx (b : Byte) (s : State) : Result :=
  andOp (.mem (.izx b)) s

/-- $25 AND zp (R173). -/
def execAndZp (b : Byte) (s : State) : Result :=
  andOp (.mem (.zp b)) s

/-- $29 AND imm (R173). -/
def execAndImm (b : Byte) (s : State) : Result :=
  andOp (.imm b) s

/-- $2D AND abs (R173). -/
def execAndAbs (lo hi : Byte) (s : State) : Result :=
  andOp (.mem (.abs lo hi)) s

/-- $31 AND (zp),Y (R173). -/
def execAndIzy (b : Byte) (s : State) : Result :=
  andOp (.mem (.izy b)) s

/-- $35 AND zp,X (R173). -/
def execAndZpx (b : Byte) (s : State) : Result :=
  andOp (.mem (.zpx b)) s

/-- $39 AND abs,Y (R173). -/
def execAndAby (lo hi : Byte) (s : State) : Result :=
  andOp (.mem (.aby lo hi)) s

/-- $3D AND abs,X (R173). -/
def execAndAbx (lo hi : Byte) (s : State) : Result :=
  andOp (.mem (.abx lo hi)) s

/-- $01 ORA (zp,X) (R174). -/
def execOraIzx (b : Byte) (s : State) : Result :=
  oraOp (.mem (.izx b)) s

/-- $05 ORA zp (R174). -/
def execOraZp (b : Byte) (s : State) : Result :=
  oraOp (.mem (.zp b)) s

/-- $09 ORA imm (R174). -/
def execOraImm (b : Byte) (s : State) : Result :=
  oraOp (.imm b) s

/-- $0D ORA abs (R174). -/
def execOraAbs (lo hi : Byte) (s : State) : Result :=
  oraOp (.mem (.abs lo hi)) s

/-- $11 ORA (zp),Y (R174). -/
def execOraIzy (b : Byte) (s : State) : Result :=
  oraOp (.mem (.izy b)) s

/-- $15 ORA zp,X (R174). -/
def execOraZpx (b : Byte) (s : State) : Result :=
  oraOp (.mem (.zpx b)) s

/-- $19 ORA abs,Y (R174). -/
def execOraAby (lo hi : Byte) (s : State) : Result :=
  oraOp (.mem (.aby lo hi)) s

/-- $1D ORA abs,X (R174). -/
def execOraAbx (lo hi : Byte) (s : State) : Result :=
  oraOp (.mem (.abx lo hi)) s

/-- $41 EOR (zp,X) (R175). -/
def execEorIzx (b : Byte) (s : State) : Result :=
  eorOp (.mem (.izx b)) s

/-- $45 EOR zp (R175). -/
def execEorZp (b : Byte) (s : State) : Result :=
  eorOp (.mem (.zp b)) s

/-- $49 EOR imm (R175). -/
def execEorImm (b : Byte) (s : State) : Result :=
  eorOp (.imm b) s

/-- $4D EOR abs (R175). -/
def execEorAbs (lo hi : Byte) (s : State) : Result :=
  eorOp (.mem (.abs lo hi)) s

/-- $51 EOR (zp),Y (R175). -/
def execEorIzy (b : Byte) (s : State) : Result :=
  eorOp (.mem (.izy b)) s

/-- $55 EOR zp,X (R175). -/
def execEorZpx (b : Byte) (s : State) : Result :=
  eorOp (.mem (.zpx b)) s

/-- $59 EOR abs,Y (R175). -/
def execEorAby (lo hi : Byte) (s : State) : Result :=
  eorOp (.mem (.aby lo hi)) s

/-- $5D EOR abs,X (R175). -/
def execEorAbx (lo hi : Byte) (s : State) : Result :=
  eorOp (.mem (.abx lo hi)) s

/-- $24 BIT zp (R176). -/
def execBitZp (b : Byte) (s : State) : Result :=
  bitOp (.mem (.zp b)) s

/-- $2C BIT abs (R176). -/
def execBitAbs (lo hi : Byte) (s : State) : Result :=
  bitOp (.mem (.abs lo hi)) s

/-- $C1 CMP (zp,X) (R178). -/
def execCmpIzx (b : Byte) (s : State) : Result :=
  cmpOp (.mem (.izx b)) s

/-- $C5 CMP zp (R178). -/
def execCmpZp (b : Byte) (s : State) : Result :=
  cmpOp (.mem (.zp b)) s

/-- $C9 CMP imm (R178). -/
def execCmpImm (b : Byte) (s : State) : Result :=
  cmpOp (.imm b) s

/-- $CD CMP abs (R178). -/
def execCmpAbs (lo hi : Byte) (s : State) : Result :=
  cmpOp (.mem (.abs lo hi)) s

/-- $D1 CMP (zp),Y (R178). -/
def execCmpIzy (b : Byte) (s : State) : Result :=
  cmpOp (.mem (.izy b)) s

/-- $D5 CMP zp,X (R178). -/
def execCmpZpx (b : Byte) (s : State) : Result :=
  cmpOp (.mem (.zpx b)) s

/-- $D9 CMP abs,Y (R178). -/
def execCmpAby (lo hi : Byte) (s : State) : Result :=
  cmpOp (.mem (.aby lo hi)) s

/-- $DD CMP abs,X (R178). -/
def execCmpAbx (lo hi : Byte) (s : State) : Result :=
  cmpOp (.mem (.abx lo hi)) s

/-- $E0 CPX imm (R179). -/
def execCpxImm (b : Byte) (s : State) : Result :=
  cpxOp (.imm b) s

/-- $E4 CPX zp (R179). -/
def execCpxZp (b : Byte) (s : State) : Result :=
  cpxOp (.mem (.zp b)) s

/-- $EC CPX abs (R179). -/
def execCpxAbs (lo hi : Byte) (s : State) : Result :=
  cpxOp (.mem (.abs lo hi)) s

/-- $C0 CPY imm (R180). -/
def execCpyImm (b : Byte) (s : State) : Result :=
  cpyOp (.imm b) s

/-- $C4 CPY zp (R180). -/
def execCpyZp (b : Byte) (s : State) : Result :=
  cpyOp (.mem (.zp b)) s

/-- $CC CPY abs (R180). -/
def execCpyAbs (lo hi : Byte) (s : State) : Result :=
  cpyOp (.mem (.abs lo hi)) s

/-- $E6 INC zp (R181). -/
def execIncZp (b : Byte) (s : State) : Result :=
  incOp (.zp b) s

/-- $EE INC abs (R181). -/
def execIncAbs (lo hi : Byte) (s : State) : Result :=
  incOp (.abs lo hi) s

/-- $F6 INC zp,X (R181). -/
def execIncZpx (b : Byte) (s : State) : Result :=
  incOp (.zpx b) s

/-- $FE INC abs,X (R181). -/
def execIncAbx (lo hi : Byte) (s : State) : Result :=
  incOp (.abx lo hi) s

/-- $C6 DEC zp (R182). -/
def execDecZp (b : Byte) (s : State) : Result :=
  decOp (.zp b) s

/-- $CE DEC abs (R182). -/
def execDecAbs (lo hi : Byte) (s : State) : Result :=
  decOp (.abs lo hi) s

/-- $D6 DEC zp,X (R182). -/
def execDecZpx (b : Byte) (s : State) : Result :=
  decOp (.zpx b) s

/-- $DE DEC abs,X (R182). -/
def execDecAbx (lo hi : Byte) (s : State) : Result :=
  decOp (.abx lo hi) s

/-- INX (R183). -/
def execInx (s : State) : Result :=
  let t := s.idle
  .next (t.withCpu { t.cpu with x := t.cpu.x + 1, p := t.cpu.p.setNZ (t.cpu.x + 1) })

/-- INY (R184). -/
def execIny (s : State) : Result :=
  let t := s.idle
  .next (t.withCpu { t.cpu with y := t.cpu.y + 1, p := t.cpu.p.setNZ (t.cpu.y + 1) })

/-- DEX (R185). -/
def execDex (s : State) : Result :=
  let t := s.idle
  .next (t.withCpu { t.cpu with x := t.cpu.x - 1, p := t.cpu.p.setNZ (t.cpu.x - 1) })

/-- DEY (R186). -/
def execDey (s : State) : Result :=
  let t := s.idle
  .next (t.withCpu { t.cpu with y := t.cpu.y - 1, p := t.cpu.p.setNZ (t.cpu.y - 1) })

end Sys2Proof.Machine
end

