-- ==== Sys2Proof/Machine/Control.lean ====
section
/-! DEFINITION. Jumps, subroutines, branches, BRK and RTI (45_control_transfer R210 to R224). A meaning runs on the state in which the
instruction's bytes have been fetched, so PC is past them; JSR's third byte and BRK's padding byte are read by their meanings. -/

namespace Sys2Proof.Machine

/-- JMP absolute (R210). -/
def execJmpAbs (lo hi : Byte) (s : State) : Result :=
  .next (s.setPc (mkAddr hi lo))

/-- JMP indirect (R211): the target's high byte is read without a carry into the pointer's high byte. -/
def execJmpInd (lo hi : Byte) (s : State) : Result :=
  let l := s.read (mkAddr hi lo)
  let h := l.2.read (mkAddr hi (lo + 1))
  .next (h.2.setPc (mkAddr h.1 l.1))

/-- JSR (R212). PC is the address of the instruction's last byte: that is pushed, and the high byte of the target is read there AFTER the
pushes, so the decoded high byte plays no part (log 14). -/
def execJsrAbs (lo : Byte) (s : State) : Result :=
  let pushed := (s.dummyRead s.cpu.stackAddr).pushAddr s.cpu.pc
  let h := pushed.read pushed.cpu.pc
  .next (h.2.setPc (mkAddr h.1 lo))

/-- RTS (R213). -/
def execRts (s : State) : Result :=
  let t := s.idle
  let r := (t.dummyRead t.cpu.stackAddr).pullAddr
  let u := (r.2.setPc r.1).idle
  .next (u.setPc (u.cpu.pc + 1))

/-- The common branch rule (R214): when taken, a dummy read at PC, and one more at the uncorrected target if the page changes. -/
def branch (taken : Bool) (off : Byte) (s : State) : State :=
  if taken then
    let target := s.cpu.pc + sext off
    let t := s.idle
    let u := if hi target = hi s.cpu.pc then t else t.dummyRead (mkAddr (hi s.cpu.pc) (lo target))
    u.setPc target
  else s

/-- BPL (R215): taken when N == 0. -/
def execBpl (off : Byte) (s : State) : Result :=
  .next (branch (!s.cpu.p.n) off s)

/-- BMI (R216): taken when N == 1. -/
def execBmi (off : Byte) (s : State) : Result :=
  .next (branch (s.cpu.p.n) off s)

/-- BVC (R217): taken when V == 0. -/
def execBvc (off : Byte) (s : State) : Result :=
  .next (branch (!s.cpu.p.v) off s)

/-- BVS (R218): taken when V == 1. -/
def execBvs (off : Byte) (s : State) : Result :=
  .next (branch (s.cpu.p.v) off s)

/-- BCC (R219): taken when C == 0. -/
def execBcc (off : Byte) (s : State) : Result :=
  .next (branch (!s.cpu.p.c) off s)

/-- BCS (R220): taken when C == 1. -/
def execBcs (off : Byte) (s : State) : Result :=
  .next (branch (s.cpu.p.c) off s)

/-- BNE (R221): taken when Z == 0. -/
def execBne (off : Byte) (s : State) : Result :=
  .next (branch (!s.cpu.p.z) off s)

/-- BEQ (R222): taken when Z == 1. -/
def execBeq (off : Byte) (s : State) : Result :=
  .next (branch (s.cpu.p.z) off s)

/-- BRK (R223): the padding byte is fetched and skipped, then the entry with break bit 1 through $FFFE. -/
def execBrk (s : State) : Result :=
  .next (s.fetchByte.2.enterInterrupt true 0xFFFE)

/-- RTI (R224). -/
def execRti (s : State) : Result :=
  .next s.idle.leaveInterrupt

end Sys2Proof.Machine
end

