-- ==== Sys2Proof/Machine/FlagOps.lean ====
section
/-! DEFINITION. Flag instructions and the documented NOP (46_flags_system R240 to R247). -/

namespace Sys2Proof.Machine

/-- CLC (R240). -/
def execClc (s : State) : Result :=
  let t := s.idle
  .next (t.setFlags { t.cpu.p with c := false })

/-- SEC (R241). -/
def execSec (s : State) : Result :=
  let t := s.idle
  .next (t.setFlags { t.cpu.p with c := true })

/-- CLD (R244). -/
def execCld (s : State) : Result :=
  let t := s.idle
  .next (t.setFlags { t.cpu.p with d := false })

/-- SED (R245). -/
def execSed (s : State) : Result :=
  let t := s.idle
  .next (t.setFlags { t.cpu.p with d := true })

/-- CLV (R246). -/
def execClv (s : State) : Result :=
  let t := s.idle
  .next (t.setFlags { t.cpu.p with v := false })

/-- CLI (R242): the next poll sees the I of before the instruction. -/
def execCli (s : State) : Result :=
  let t := s.idle
  .next (t.withCpu { t.cpu with iPoll := t.cpu.p.i, p := { t.cpu.p with i := false } })

/-- SEI (R243): the next poll sees the I of before the instruction. -/
def execSei (s : State) : Result :=
  let t := s.idle
  .next (t.withCpu { t.cpu with iPoll := t.cpu.p.i, p := { t.cpu.p with i := true } })

/-- NOP (R247). -/
def execNop (s : State) : Result :=
  .next s.idle

end Sys2Proof.Machine
end

