-- ==== Sys2Proof/Machine/LoadStore.lean ====
section
/-! DEFINITION. Loads, stores and register transfers (41_load_store_transfer R140 to R151): one operation per mnemonic, and one meaning per
constructor of `Instr`. -/

namespace Sys2Proof.Machine

/-- LDA (R140): `A <- v; setNZ(A)`. -/
def ldaOp (o : Operand) (s : State) : Result :=
  let r := s.operand o
  .next (r.2.withCpu { r.2.cpu with a := r.1, p := r.2.cpu.p.setNZ r.1 })

/-- LDX (R141): `X <- v; setNZ(X)`. -/
def ldxOp (o : Operand) (s : State) : Result :=
  let r := s.operand o
  .next (r.2.withCpu { r.2.cpu with x := r.1, p := r.2.cpu.p.setNZ r.1 })

/-- LDY (R142): `Y <- v; setNZ(Y)`. -/
def ldyOp (o : Operand) (s : State) : Result :=
  let r := s.operand o
  .next (r.2.withCpu { r.2.cpu with y := r.1, p := r.2.cpu.p.setNZ r.1 })

/-- STA (R143): `Store(A)`. -/
def staOp (m : AddrMode) (s : State) : Result :=
  .next (s.store m s.cpu.a)

/-- STX (R144): `Store(X)`. -/
def stxOp (m : AddrMode) (s : State) : Result :=
  .next (s.store m s.cpu.x)

/-- STY (R145): `Store(Y)`. -/
def styOp (m : AddrMode) (s : State) : Result :=
  .next (s.store m s.cpu.y)

/-- $A1 LDA (zp,X) (R140). -/
def execLdaIzx (b : Byte) (s : State) : Result :=
  ldaOp (.mem (.izx b)) s

/-- $A5 LDA zp (R140). -/
def execLdaZp (b : Byte) (s : State) : Result :=
  ldaOp (.mem (.zp b)) s

/-- $A9 LDA imm (R140). -/
def execLdaImm (b : Byte) (s : State) : Result :=
  ldaOp (.imm b) s

/-- $AD LDA abs (R140). -/
def execLdaAbs (lo hi : Byte) (s : State) : Result :=
  ldaOp (.mem (.abs lo hi)) s

/-- $B1 LDA (zp),Y (R140). -/
def execLdaIzy (b : Byte) (s : State) : Result :=
  ldaOp (.mem (.izy b)) s

/-- $B5 LDA zp,X (R140). -/
def execLdaZpx (b : Byte) (s : State) : Result :=
  ldaOp (.mem (.zpx b)) s

/-- $B9 LDA abs,Y (R140). -/
def execLdaAby (lo hi : Byte) (s : State) : Result :=
  ldaOp (.mem (.aby lo hi)) s

/-- $BD LDA abs,X (R140). -/
def execLdaAbx (lo hi : Byte) (s : State) : Result :=
  ldaOp (.mem (.abx lo hi)) s

/-- $A2 LDX imm (R141). -/
def execLdxImm (b : Byte) (s : State) : Result :=
  ldxOp (.imm b) s

/-- $A6 LDX zp (R141). -/
def execLdxZp (b : Byte) (s : State) : Result :=
  ldxOp (.mem (.zp b)) s

/-- $AE LDX abs (R141). -/
def execLdxAbs (lo hi : Byte) (s : State) : Result :=
  ldxOp (.mem (.abs lo hi)) s

/-- $B6 LDX zp,Y (R141). -/
def execLdxZpy (b : Byte) (s : State) : Result :=
  ldxOp (.mem (.zpy b)) s

/-- $BE LDX abs,Y (R141). -/
def execLdxAby (lo hi : Byte) (s : State) : Result :=
  ldxOp (.mem (.aby lo hi)) s

/-- $A0 LDY imm (R142). -/
def execLdyImm (b : Byte) (s : State) : Result :=
  ldyOp (.imm b) s

/-- $A4 LDY zp (R142). -/
def execLdyZp (b : Byte) (s : State) : Result :=
  ldyOp (.mem (.zp b)) s

/-- $AC LDY abs (R142). -/
def execLdyAbs (lo hi : Byte) (s : State) : Result :=
  ldyOp (.mem (.abs lo hi)) s

/-- $B4 LDY zp,X (R142). -/
def execLdyZpx (b : Byte) (s : State) : Result :=
  ldyOp (.mem (.zpx b)) s

/-- $BC LDY abs,X (R142). -/
def execLdyAbx (lo hi : Byte) (s : State) : Result :=
  ldyOp (.mem (.abx lo hi)) s

/-- $81 STA (zp,X) (R143). -/
def execStaIzx (b : Byte) (s : State) : Result :=
  staOp (.izx b) s

/-- $85 STA zp (R143). -/
def execStaZp (b : Byte) (s : State) : Result :=
  staOp (.zp b) s

/-- $8D STA abs (R143). -/
def execStaAbs (lo hi : Byte) (s : State) : Result :=
  staOp (.abs lo hi) s

/-- $91 STA (zp),Y (R143). -/
def execStaIzy (b : Byte) (s : State) : Result :=
  staOp (.izy b) s

/-- $95 STA zp,X (R143). -/
def execStaZpx (b : Byte) (s : State) : Result :=
  staOp (.zpx b) s

/-- $99 STA abs,Y (R143). -/
def execStaAby (lo hi : Byte) (s : State) : Result :=
  staOp (.aby lo hi) s

/-- $9D STA abs,X (R143). -/
def execStaAbx (lo hi : Byte) (s : State) : Result :=
  staOp (.abx lo hi) s

/-- $86 STX zp (R144). -/
def execStxZp (b : Byte) (s : State) : Result :=
  stxOp (.zp b) s

/-- $8E STX abs (R144). -/
def execStxAbs (lo hi : Byte) (s : State) : Result :=
  stxOp (.abs lo hi) s

/-- $96 STX zp,Y (R144). -/
def execStxZpy (b : Byte) (s : State) : Result :=
  stxOp (.zpy b) s

/-- $84 STY zp (R145). -/
def execStyZp (b : Byte) (s : State) : Result :=
  styOp (.zp b) s

/-- $8C STY abs (R145). -/
def execStyAbs (lo hi : Byte) (s : State) : Result :=
  styOp (.abs lo hi) s

/-- $94 STY zp,X (R145). -/
def execStyZpx (b : Byte) (s : State) : Result :=
  styOp (.zpx b) s

/-- TAX (R146). -/
def execTax (s : State) : Result :=
  let t := s.idle
  .next (t.withCpu { t.cpu with x := t.cpu.a, p := t.cpu.p.setNZ t.cpu.a })

/-- TAY (R147). -/
def execTay (s : State) : Result :=
  let t := s.idle
  .next (t.withCpu { t.cpu with y := t.cpu.a, p := t.cpu.p.setNZ t.cpu.a })

/-- TXA (R148). -/
def execTxa (s : State) : Result :=
  let t := s.idle
  .next (t.withCpu { t.cpu with a := t.cpu.x, p := t.cpu.p.setNZ t.cpu.x })

/-- TYA (R149). -/
def execTya (s : State) : Result :=
  let t := s.idle
  .next (t.withCpu { t.cpu with a := t.cpu.y, p := t.cpu.p.setNZ t.cpu.y })

/-- TSX (R150). -/
def execTsx (s : State) : Result :=
  let t := s.idle
  .next (t.withCpu { t.cpu with x := t.cpu.s, p := t.cpu.p.setNZ t.cpu.s })

/-- TXS (R151): no flag is written. -/
def execTxs (s : State) : Result :=
  let t := s.idle
  .next (t.withCpu { t.cpu with s := t.cpu.x })

end Sys2Proof.Machine
end

