-- ==== Sys2Proof/Machine/Shift.lean ====
section
/-! DEFINITION. Shifts and rotates (44_shift_rotate R200 to R203): one operation per mnemonic over the memory forms, and one meaning per
constructor of `Instr`. The carry a rotate shifts in is that of before the instruction. -/

namespace Sys2Proof.Machine

/-- ASL, memory forms (R200). -/
def aslOp (m : AddrMode) (s : State) : Result :=
  let r := s.modify m aslByte
  .next (r.2.setFlags (r.2.cpu.p.shifted (bit r.1 7) (aslByte r.1)))

/-- LSR, memory forms (R201). -/
def lsrOp (m : AddrMode) (s : State) : Result :=
  let r := s.modify m lsrByte
  .next (r.2.setFlags (r.2.cpu.p.shifted (bit r.1 0) (lsrByte r.1)))

/-- ROL, memory forms (R202). -/
def rolOp (m : AddrMode) (s : State) : Result :=
  let r := s.modify m (rolByte s.cpu.p.c)
  .next (r.2.setFlags (r.2.cpu.p.shifted (bit r.1 7) (rolByte s.cpu.p.c r.1)))

/-- ROR, memory forms (R203). -/
def rorOp (m : AddrMode) (s : State) : Result :=
  let r := s.modify m (rorByte s.cpu.p.c)
  .next (r.2.setFlags (r.2.cpu.p.shifted (bit r.1 0) (rorByte s.cpu.p.c r.1)))

/-- $06 ASL zp (R200). -/
def execAslZp (b : Byte) (s : State) : Result :=
  aslOp (.zp b) s

/-- $0E ASL abs (R200). -/
def execAslAbs (lo hi : Byte) (s : State) : Result :=
  aslOp (.abs lo hi) s

/-- $16 ASL zp,X (R200). -/
def execAslZpx (b : Byte) (s : State) : Result :=
  aslOp (.zpx b) s

/-- $1E ASL abs,X (R200). -/
def execAslAbx (lo hi : Byte) (s : State) : Result :=
  aslOp (.abx lo hi) s

/-- $46 LSR zp (R201). -/
def execLsrZp (b : Byte) (s : State) : Result :=
  lsrOp (.zp b) s

/-- $4E LSR abs (R201). -/
def execLsrAbs (lo hi : Byte) (s : State) : Result :=
  lsrOp (.abs lo hi) s

/-- $56 LSR zp,X (R201). -/
def execLsrZpx (b : Byte) (s : State) : Result :=
  lsrOp (.zpx b) s

/-- $5E LSR abs,X (R201). -/
def execLsrAbx (lo hi : Byte) (s : State) : Result :=
  lsrOp (.abx lo hi) s

/-- $26 ROL zp (R202). -/
def execRolZp (b : Byte) (s : State) : Result :=
  rolOp (.zp b) s

/-- $2E ROL abs (R202). -/
def execRolAbs (lo hi : Byte) (s : State) : Result :=
  rolOp (.abs lo hi) s

/-- $36 ROL zp,X (R202). -/
def execRolZpx (b : Byte) (s : State) : Result :=
  rolOp (.zpx b) s

/-- $3E ROL abs,X (R202). -/
def execRolAbx (lo hi : Byte) (s : State) : Result :=
  rolOp (.abx lo hi) s

/-- $66 ROR zp (R203). -/
def execRorZp (b : Byte) (s : State) : Result :=
  rorOp (.zp b) s

/-- $6E ROR abs (R203). -/
def execRorAbs (lo hi : Byte) (s : State) : Result :=
  rorOp (.abs lo hi) s

/-- $76 ROR zp,X (R203). -/
def execRorZpx (b : Byte) (s : State) : Result :=
  rorOp (.zpx b) s

/-- $7E ROR abs,X (R203). -/
def execRorAbx (lo hi : Byte) (s : State) : Result :=
  rorOp (.abx lo hi) s

/-- ASL A (R200). -/
def execAslAcc (s : State) : Result :=
  let t := s.idle
  let a := aslByte t.cpu.a
  .next (t.withCpu { t.cpu with a := a, p := t.cpu.p.shifted (bit t.cpu.a 7) a })

/-- LSR A (R201). -/
def execLsrAcc (s : State) : Result :=
  let t := s.idle
  let a := lsrByte t.cpu.a
  .next (t.withCpu { t.cpu with a := a, p := t.cpu.p.shifted (bit t.cpu.a 0) a })

/-- ROL A (R202). -/
def execRolAcc (s : State) : Result :=
  let t := s.idle
  let a := rolByte t.cpu.p.c t.cpu.a
  .next (t.withCpu { t.cpu with a := a, p := t.cpu.p.shifted (bit t.cpu.a 7) a })

/-- ROR A (R203). -/
def execRorAcc (s : State) : Result :=
  let t := s.idle
  let a := rorByte t.cpu.p.c t.cpu.a
  .next (t.withCpu { t.cpu with a := a, p := t.cpu.p.shifted (bit t.cpu.a 0) a })

end Sys2Proof.Machine
end

