-- ==== Sys2Proof/Machine/Stack.lean ====
section
/-! DEFINITION. Stack instructions (42_stack R162 to R165). -/

namespace Sys2Proof.Machine

/-- PHA (R162). -/
def execPha (s : State) : Result :=
  let t := s.idle
  .next (t.push t.cpu.a)

/-- PHP (R163): the pushed image has bits 5 and 4 set. -/
def execPhp (s : State) : Result :=
  let t := s.idle
  .next (t.push (t.cpu.p.pbyte true))

/-- PLA (R164). -/
def execPla (s : State) : Result :=
  let t := s.idle
  let r := (t.dummyRead t.cpu.stackAddr).pull
  .next (r.2.withCpu { r.2.cpu with a := r.1, p := r.2.cpu.p.setNZ r.1 })

/-- PLP (R165): the next poll sees the I of before the instruction. -/
def execPlp (s : State) : Result :=
  let t := s.idle
  let r := (t.dummyRead t.cpu.stackAddr).pull
  .next (r.2.withCpu { r.2.cpu with iPoll := r.2.cpu.p.i, p := Flags.pload r.1 })

end Sys2Proof.Machine
end

