-- ==== Sys2Proof/Machine/Undocumented.lean ====
section
/-! DEFINITION. The undocumented opcodes (47_undocumented R251 to R273): one operation per mnemonic, and one meaning per constructor of
`Instr`. Which of them a machine executes is ILLEGAL_POLICY, applied by the step before a meaning runs (30_encoding R86, R100). -/

namespace Sys2Proof.Machine

/-- SLO (R251): ASL, then ORA. -/
def sloOp (m : AddrMode) (s : State) : Result :=
  let r := s.modify m aslByte
  let a := r.2.cpu.a ||| aslByte r.1
  .next (r.2.withCpu { r.2.cpu with a := a, p := r.2.cpu.p.shifted (bit r.1 7) a })

/-- RLA (R252): ROL, then AND. -/
def rlaOp (m : AddrMode) (s : State) : Result :=
  let r := s.modify m (rolByte s.cpu.p.c)
  let a := r.2.cpu.a &&& rolByte s.cpu.p.c r.1
  .next (r.2.withCpu { r.2.cpu with a := a, p := r.2.cpu.p.shifted (bit r.1 7) a })

/-- SRE (R253): LSR, then EOR. -/
def sreOp (m : AddrMode) (s : State) : Result :=
  let r := s.modify m lsrByte
  let a := r.2.cpu.a ^^^ lsrByte r.1
  .next (r.2.withCpu { r.2.cpu with a := a, p := r.2.cpu.p.shifted (bit r.1 0) a })

/-- RRA (R254): ROR, then ADC with the bit the rotate shifted out as carry. -/
def rraOp (m : AddrMode) (s : State) : Result :=
  let r := s.modify m (rorByte s.cpu.p.c)
  let rotated := r.2.setFlags { r.2.cpu.p with c := bit r.1 0 }
  .next (rotated.withCpu (rotated.cpu.adcByte (rorByte s.cpu.p.c r.1)))

/-- DCP (R257): DEC, then CMP. -/
def dcpOp (m : AddrMode) (s : State) : Result :=
  let r := s.modify m (· - 1)
  .next (r.2.setFlags (r.2.cpu.p.compare r.2.cpu.a (r.1 - 1)))

/-- ISC (R258): INC, then SBC. -/
def iscOp (m : AddrMode) (s : State) : Result :=
  let r := s.modify m (· + 1)
  .next (r.2.withCpu (r.2.cpu.adcByte ((r.1 + 1) ^^^ 0xFF)))

/-- SAX (R255): `Store(A & X)`. -/
def saxOp (m : AddrMode) (s : State) : Result :=
  .next (s.store m (s.cpu.a &&& s.cpu.x))

/-- LAX (R256). -/
def laxOp (o : Operand) (s : State) : Result :=
  let r := s.operand o
  .next (r.2.withCpu { r.2.cpu with a := r.1, x := r.1, p := r.2.cpu.p.setNZ r.1 })

/-- LAS (R266). -/
def lasOp (o : Operand) (s : State) : Result :=
  let r := s.operand o
  let t := r.1 &&& r.2.cpu.s
  .next (r.2.withCpu { r.2.cpu with a := t, x := t, s := t, p := r.2.cpu.p.setNZ t })

/-- ANC (R259): AND, then C from bit 7 of the result. -/
def ancOp (o : Operand) (s : State) : Result :=
  let r := s.operand o
  let a := r.2.cpu.a &&& r.1
  .next (r.2.withCpu { r.2.cpu with a := a, p := r.2.cpu.p.shifted (bit a 7) a })

/-- ALR (R260): AND, then LSR A. -/
def alrOp (o : Operand) (s : State) : Result :=
  let r := s.operand o
  let t := r.2.cpu.a &&& r.1
  .next (r.2.withCpu { r.2.cpu with a := lsrByte t, p := r.2.cpu.p.shifted (bit t 0) (lsrByte t) })

/-- ARR (R261): AND, then a rotate right with flags of its own. -/
def arrOp (o : Operand) (s : State) : Result :=
  let r := s.operand o
  let a := rorByte r.2.cpu.p.c (r.2.cpu.a &&& r.1)
  .next (r.2.withCpu { r.2.cpu with a := a, p := r.2.cpu.p.arr a })

/-- SBX (R262): A and X, less the operand, into X; C as a compare. -/
def sbxOp (o : Operand) (s : State) : Result :=
  let r := s.operand o
  let t := r.2.cpu.a &&& r.2.cpu.x
  .next (r.2.withCpu { r.2.cpu with x := t - r.1, p := r.2.cpu.p.compare t r.1 })

/-- USBC (R263): identical to SBC immediate. -/
def usbcOp (o : Operand) (s : State) : Result :=
  let r := s.operand o
  .next (r.2.withCpu (r.2.cpu.adcByte (r.1 ^^^ 0xFF)))

/-- ANE (R264): `A <- (A | MAGIC_ANE) & X & v`. -/
def aneOp (o : Operand) (s : State) : Result :=
  let r := s.operand o
  let a := (r.2.cpu.a ||| r.2.params.magicAne) &&& r.2.cpu.x &&& r.1
  .next (r.2.withCpu { r.2.cpu with a := a, p := r.2.cpu.p.setNZ a })

/-- LXA (R265): `A, X <- (A | MAGIC_LXA) & v`. -/
def lxaOp (o : Operand) (s : State) : Result :=
  let r := s.operand o
  let t := (r.2.cpu.a ||| r.2.params.magicLxa) &&& r.1
  .next (r.2.withCpu { r.2.cpu with a := t, x := t, p := r.2.cpu.p.setNZ t })

/-- SHA (R268): the common rule of R267 with `r = A & X`. -/
def shaOp (m : AddrMode) (s : State) : Result :=
  .next (s.storeHigh m (s.cpu.a &&& s.cpu.x))

/-- SHX (R269): the common rule of R267 with `r = X`. -/
def shxOp (m : AddrMode) (s : State) : Result :=
  .next (s.storeHigh m s.cpu.x)

/-- SHY (R270): the common rule of R267 with `r = Y`. -/
def shyOp (m : AddrMode) (s : State) : Result :=
  .next (s.storeHigh m s.cpu.y)

/-- TAS (R271): `S <- A & X`, then the common rule of R267 with the new S. -/
def tasOp (m : AddrMode) (s : State) : Result :=
  let t := s.withCpu { s.cpu with s := s.cpu.a &&& s.cpu.x }
  .next (t.storeHigh m t.cpu.s)

/-- An undocumented NOP with an operand (R272): the access sequence of its mode, the value discarded. -/
def nopOp (o : Operand) (s : State) : Result :=
  .next (s.operand o).2

/-- An undocumented implied NOP (R272): `DummyRead(PC)`. -/
def nopImpOp (s : State) : Result :=
  .next s.idle

/-- JAM (R273): `jammed <- 1`; PC is past the opcode and nothing else happens. -/
def jamOp (s : State) : Result :=
  .next (s.withCpu { s.cpu with jammed := true })

/-- $03 SLO (zp,X) (R251). -/
def execSloIzx (b : Byte) (s : State) : Result :=
  sloOp (.izx b) s

/-- $07 SLO zp (R251). -/
def execSloZp (b : Byte) (s : State) : Result :=
  sloOp (.zp b) s

/-- $0F SLO abs (R251). -/
def execSloAbs (lo hi : Byte) (s : State) : Result :=
  sloOp (.abs lo hi) s

/-- $13 SLO (zp),Y (R251). -/
def execSloIzy (b : Byte) (s : State) : Result :=
  sloOp (.izy b) s

/-- $17 SLO zp,X (R251). -/
def execSloZpx (b : Byte) (s : State) : Result :=
  sloOp (.zpx b) s

/-- $1B SLO abs,Y (R251). -/
def execSloAby (lo hi : Byte) (s : State) : Result :=
  sloOp (.aby lo hi) s

/-- $1F SLO abs,X (R251). -/
def execSloAbx (lo hi : Byte) (s : State) : Result :=
  sloOp (.abx lo hi) s

/-- $23 RLA (zp,X) (R252). -/
def execRlaIzx (b : Byte) (s : State) : Result :=
  rlaOp (.izx b) s

/-- $27 RLA zp (R252). -/
def execRlaZp (b : Byte) (s : State) : Result :=
  rlaOp (.zp b) s

/-- $2F RLA abs (R252). -/
def execRlaAbs (lo hi : Byte) (s : State) : Result :=
  rlaOp (.abs lo hi) s

/-- $33 RLA (zp),Y (R252). -/
def execRlaIzy (b : Byte) (s : State) : Result :=
  rlaOp (.izy b) s

/-- $37 RLA zp,X (R252). -/
def execRlaZpx (b : Byte) (s : State) : Result :=
  rlaOp (.zpx b) s

/-- $3B RLA abs,Y (R252). -/
def execRlaAby (lo hi : Byte) (s : State) : Result :=
  rlaOp (.aby lo hi) s

/-- $3F RLA abs,X (R252). -/
def execRlaAbx (lo hi : Byte) (s : State) : Result :=
  rlaOp (.abx lo hi) s

/-- $43 SRE (zp,X) (R253). -/
def execSreIzx (b : Byte) (s : State) : Result :=
  sreOp (.izx b) s

/-- $47 SRE zp (R253). -/
def execSreZp (b : Byte) (s : State) : Result :=
  sreOp (.zp b) s

/-- $4F SRE abs (R253). -/
def execSreAbs (lo hi : Byte) (s : State) : Result :=
  sreOp (.abs lo hi) s

/-- $53 SRE (zp),Y (R253). -/
def execSreIzy (b : Byte) (s : State) : Result :=
  sreOp (.izy b) s

/-- $57 SRE zp,X (R253). -/
def execSreZpx (b : Byte) (s : State) : Result :=
  sreOp (.zpx b) s

/-- $5B SRE abs,Y (R253). -/
def execSreAby (lo hi : Byte) (s : State) : Result :=
  sreOp (.aby lo hi) s

/-- $5F SRE abs,X (R253). -/
def execSreAbx (lo hi : Byte) (s : State) : Result :=
  sreOp (.abx lo hi) s

/-- $63 RRA (zp,X) (R254). -/
def execRraIzx (b : Byte) (s : State) : Result :=
  rraOp (.izx b) s

/-- $67 RRA zp (R254). -/
def execRraZp (b : Byte) (s : State) : Result :=
  rraOp (.zp b) s

/-- $6F RRA abs (R254). -/
def execRraAbs (lo hi : Byte) (s : State) : Result :=
  rraOp (.abs lo hi) s

/-- $73 RRA (zp),Y (R254). -/
def execRraIzy (b : Byte) (s : State) : Result :=
  rraOp (.izy b) s

/-- $77 RRA zp,X (R254). -/
def execRraZpx (b : Byte) (s : State) : Result :=
  rraOp (.zpx b) s

/-- $7B RRA abs,Y (R254). -/
def execRraAby (lo hi : Byte) (s : State) : Result :=
  rraOp (.aby lo hi) s

/-- $7F RRA abs,X (R254). -/
def execRraAbx (lo hi : Byte) (s : State) : Result :=
  rraOp (.abx lo hi) s

/-- $C3 DCP (zp,X) (R257). -/
def execDcpIzx (b : Byte) (s : State) : Result :=
  dcpOp (.izx b) s

/-- $C7 DCP zp (R257). -/
def execDcpZp (b : Byte) (s : State) : Result :=
  dcpOp (.zp b) s

/-- $CF DCP abs (R257). -/
def execDcpAbs (lo hi : Byte) (s : State) : Result :=
  dcpOp (.abs lo hi) s

/-- $D3 DCP (zp),Y (R257). -/
def execDcpIzy (b : Byte) (s : State) : Result :=
  dcpOp (.izy b) s

/-- $D7 DCP zp,X (R257). -/
def execDcpZpx (b : Byte) (s : State) : Result :=
  dcpOp (.zpx b) s

/-- $DB DCP abs,Y (R257). -/
def execDcpAby (lo hi : Byte) (s : State) : Result :=
  dcpOp (.aby lo hi) s

/-- $DF DCP abs,X (R257). -/
def execDcpAbx (lo hi : Byte) (s : State) : Result :=
  dcpOp (.abx lo hi) s

/-- $E3 ISC (zp,X) (R258). -/
def execIscIzx (b : Byte) (s : State) : Result :=
  iscOp (.izx b) s

/-- $E7 ISC zp (R258). -/
def execIscZp (b : Byte) (s : State) : Result :=
  iscOp (.zp b) s

/-- $EF ISC abs (R258). -/
def execIscAbs (lo hi : Byte) (s : State) : Result :=
  iscOp (.abs lo hi) s

/-- $F3 ISC (zp),Y (R258). -/
def execIscIzy (b : Byte) (s : State) : Result :=
  iscOp (.izy b) s

/-- $F7 ISC zp,X (R258). -/
def execIscZpx (b : Byte) (s : State) : Result :=
  iscOp (.zpx b) s

/-- $FB ISC abs,Y (R258). -/
def execIscAby (lo hi : Byte) (s : State) : Result :=
  iscOp (.aby lo hi) s

/-- $FF ISC abs,X (R258). -/
def execIscAbx (lo hi : Byte) (s : State) : Result :=
  iscOp (.abx lo hi) s

/-- $83 SAX (zp,X) (R255). -/
def execSaxIzx (b : Byte) (s : State) : Result :=
  saxOp (.izx b) s

/-- $87 SAX zp (R255). -/
def execSaxZp (b : Byte) (s : State) : Result :=
  saxOp (.zp b) s

/-- $8F SAX abs (R255). -/
def execSaxAbs (lo hi : Byte) (s : State) : Result :=
  saxOp (.abs lo hi) s

/-- $97 SAX zp,Y (R255). -/
def execSaxZpy (b : Byte) (s : State) : Result :=
  saxOp (.zpy b) s

/-- $A3 LAX (zp,X) (R256). -/
def execLaxIzx (b : Byte) (s : State) : Result :=
  laxOp (.mem (.izx b)) s

/-- $A7 LAX zp (R256). -/
def execLaxZp (b : Byte) (s : State) : Result :=
  laxOp (.mem (.zp b)) s

/-- $AF LAX abs (R256). -/
def execLaxAbs (lo hi : Byte) (s : State) : Result :=
  laxOp (.mem (.abs lo hi)) s

/-- $B3 LAX (zp),Y (R256). -/
def execLaxIzy (b : Byte) (s : State) : Result :=
  laxOp (.mem (.izy b)) s

/-- $B7 LAX zp,Y (R256). -/
def execLaxZpy (b : Byte) (s : State) : Result :=
  laxOp (.mem (.zpy b)) s

/-- $BF LAX abs,Y (R256). -/
def execLaxAby (lo hi : Byte) (s : State) : Result :=
  laxOp (.mem (.aby lo hi)) s

/-- $BB LAS abs,Y (R266). -/
def execLasAby (lo hi : Byte) (s : State) : Result :=
  lasOp (.mem (.aby lo hi)) s

/-- $0B ANC imm (R259). -/
def execAnc0B (b : Byte) (s : State) : Result :=
  ancOp (.imm b) s

/-- $2B ANC imm (R259). -/
def execAnc2B (b : Byte) (s : State) : Result :=
  ancOp (.imm b) s

/-- $4B ALR imm (R260). -/
def execAlrImm (b : Byte) (s : State) : Result :=
  alrOp (.imm b) s

/-- $6B ARR imm (R261). -/
def execArrImm (b : Byte) (s : State) : Result :=
  arrOp (.imm b) s

/-- $CB SBX imm (R262). -/
def execSbxImm (b : Byte) (s : State) : Result :=
  sbxOp (.imm b) s

/-- $EB USBC imm (R263). -/
def execUsbcImm (b : Byte) (s : State) : Result :=
  usbcOp (.imm b) s

/-- $8B ANE imm (R264). -/
def execAneImm (b : Byte) (s : State) : Result :=
  aneOp (.imm b) s

/-- $AB LXA imm (R265). -/
def execLxaImm (b : Byte) (s : State) : Result :=
  lxaOp (.imm b) s

/-- $93 SHA (zp),Y (R268). -/
def execShaIzy (b : Byte) (s : State) : Result :=
  shaOp (.izy b) s

/-- $9F SHA abs,Y (R268). -/
def execShaAby (lo hi : Byte) (s : State) : Result :=
  shaOp (.aby lo hi) s

/-- $9E SHX abs,Y (R269). -/
def execShxAby (lo hi : Byte) (s : State) : Result :=
  shxOp (.aby lo hi) s

/-- $9C SHY abs,X (R270). -/
def execShyAbx (lo hi : Byte) (s : State) : Result :=
  shyOp (.abx lo hi) s

/-- $9B TAS abs,Y (R271). -/
def execTasAby (lo hi : Byte) (s : State) : Result :=
  tasOp (.aby lo hi) s

/-- $04 NOP zp (R272). -/
def execNopZp04 (b : Byte) (s : State) : Result :=
  nopOp (.mem (.zp b)) s

/-- $0C NOP abs (R272). -/
def execNopAbs0C (lo hi : Byte) (s : State) : Result :=
  nopOp (.mem (.abs lo hi)) s

/-- $14 NOP zp,X (R272). -/
def execNopZpx14 (b : Byte) (s : State) : Result :=
  nopOp (.mem (.zpx b)) s

/-- $1A NOP impl (R272). -/
def execNopImp1A (s : State) : Result :=
  nopImpOp s

/-- $1C NOP abs,X (R272). -/
def execNopAbx1C (lo hi : Byte) (s : State) : Result :=
  nopOp (.mem (.abx lo hi)) s

/-- $34 NOP zp,X (R272). -/
def execNopZpx34 (b : Byte) (s : State) : Result :=
  nopOp (.mem (.zpx b)) s

/-- $3A NOP impl (R272). -/
def execNopImp3A (s : State) : Result :=
  nopImpOp s

/-- $3C NOP abs,X (R272). -/
def execNopAbx3C (lo hi : Byte) (s : State) : Result :=
  nopOp (.mem (.abx lo hi)) s

/-- $44 NOP zp (R272). -/
def execNopZp44 (b : Byte) (s : State) : Result :=
  nopOp (.mem (.zp b)) s

/-- $54 NOP zp,X (R272). -/
def execNopZpx54 (b : Byte) (s : State) : Result :=
  nopOp (.mem (.zpx b)) s

/-- $5A NOP impl (R272). -/
def execNopImp5A (s : State) : Result :=
  nopImpOp s

/-- $5C NOP abs,X (R272). -/
def execNopAbx5C (lo hi : Byte) (s : State) : Result :=
  nopOp (.mem (.abx lo hi)) s

/-- $64 NOP zp (R272). -/
def execNopZp64 (b : Byte) (s : State) : Result :=
  nopOp (.mem (.zp b)) s

/-- $74 NOP zp,X (R272). -/
def execNopZpx74 (b : Byte) (s : State) : Result :=
  nopOp (.mem (.zpx b)) s

/-- $7A NOP impl (R272). -/
def execNopImp7A (s : State) : Result :=
  nopImpOp s

/-- $7C NOP abs,X (R272). -/
def execNopAbx7C (lo hi : Byte) (s : State) : Result :=
  nopOp (.mem (.abx lo hi)) s

/-- $80 NOP imm (R272). -/
def execNopImm80 (b : Byte) (s : State) : Result :=
  nopOp (.imm b) s

/-- $82 NOP imm (R272). -/
def execNopImm82 (b : Byte) (s : State) : Result :=
  nopOp (.imm b) s

/-- $89 NOP imm (R272). -/
def execNopImm89 (b : Byte) (s : State) : Result :=
  nopOp (.imm b) s

/-- $C2 NOP imm (R272). -/
def execNopImmC2 (b : Byte) (s : State) : Result :=
  nopOp (.imm b) s

/-- $D4 NOP zp,X (R272). -/
def execNopZpxD4 (b : Byte) (s : State) : Result :=
  nopOp (.mem (.zpx b)) s

/-- $DA NOP impl (R272). -/
def execNopImpDA (s : State) : Result :=
  nopImpOp s

/-- $DC NOP abs,X (R272). -/
def execNopAbxDC (lo hi : Byte) (s : State) : Result :=
  nopOp (.mem (.abx lo hi)) s

/-- $E2 NOP imm (R272). -/
def execNopImmE2 (b : Byte) (s : State) : Result :=
  nopOp (.imm b) s

/-- $F4 NOP zp,X (R272). -/
def execNopZpxF4 (b : Byte) (s : State) : Result :=
  nopOp (.mem (.zpx b)) s

/-- $FA NOP impl (R272). -/
def execNopImpFA (s : State) : Result :=
  nopImpOp s

/-- $FC NOP abs,X (R272). -/
def execNopAbxFC (lo hi : Byte) (s : State) : Result :=
  nopOp (.mem (.abx lo hi)) s

/-- $02 JAM impl (R273). -/
def execJam02 (s : State) : Result :=
  jamOp s

/-- $12 JAM impl (R273). -/
def execJam12 (s : State) : Result :=
  jamOp s

/-- $22 JAM impl (R273). -/
def execJam22 (s : State) : Result :=
  jamOp s

/-- $32 JAM impl (R273). -/
def execJam32 (s : State) : Result :=
  jamOp s

/-- $42 JAM impl (R273). -/
def execJam42 (s : State) : Result :=
  jamOp s

/-- $52 JAM impl (R273). -/
def execJam52 (s : State) : Result :=
  jamOp s

/-- $62 JAM impl (R273). -/
def execJam62 (s : State) : Result :=
  jamOp s

/-- $72 JAM impl (R273). -/
def execJam72 (s : State) : Result :=
  jamOp s

/-- $92 JAM impl (R273). -/
def execJam92 (s : State) : Result :=
  jamOp s

/-- $B2 JAM impl (R273). -/
def execJamB2 (s : State) : Result :=
  jamOp s

/-- $D2 JAM impl (R273). -/
def execJamD2 (s : State) : Result :=
  jamOp s

/-- $F2 JAM impl (R273). -/
def execJamF2 (s : State) : Result :=
  jamOp s

end Sys2Proof.Machine
end

