-- ==== Sys2Proof/Syntax.lean ====
section
/-! DEFINITION. The instructions, WHOLE: one constructor per row of spec/opcode_table.json, that is one per opcode byte
(30_encoding R84, R90). A constructor is named by its mnemonic and addressing mode (R81); where one mnemonic and mode has several opcode
bytes (the undocumented NOPs, ANC, JAM) by the opcode byte too. `b`, or `lo` then `hi`, are the operand bytes in the order they lie in
memory; `off` is a branch's signed offset byte. The rows with operand bytes stand first, each part in the order of the opcode bytes: Lean's
runtime gives a constructor with fields a tag below 245. -/

namespace Sys2Proof

inductive Instr where
  /-- $01 ORA (zp,X) (R174). -/
  | oraIzx (b : Byte)
  /-- $03 SLO (zp,X) (R251). -/
  | sloIzx (b : Byte)
  /-- $04 NOP zp (R272). -/
  | nopZp04 (b : Byte)
  /-- $05 ORA zp (R174). -/
  | oraZp (b : Byte)
  /-- $06 ASL zp (R200). -/
  | aslZp (b : Byte)
  /-- $07 SLO zp (R251). -/
  | sloZp (b : Byte)
  /-- $09 ORA imm (R174). -/
  | oraImm (b : Byte)
  /-- $0B ANC imm (R259). -/
  | anc0B (b : Byte)
  /-- $0C NOP abs (R272). -/
  | nopAbs0C (lo hi : Byte)
  /-- $0D ORA abs (R174). -/
  | oraAbs (lo hi : Byte)
  /-- $0E ASL abs (R200). -/
  | aslAbs (lo hi : Byte)
  /-- $0F SLO abs (R251). -/
  | sloAbs (lo hi : Byte)
  /-- $10 BPL rel (R215). -/
  | bpl (off : Byte)
  /-- $11 ORA (zp),Y (R174). -/
  | oraIzy (b : Byte)
  /-- $13 SLO (zp),Y (R251). -/
  | sloIzy (b : Byte)
  /-- $14 NOP zp,X (R272). -/
  | nopZpx14 (b : Byte)
  /-- $15 ORA zp,X (R174). -/
  | oraZpx (b : Byte)
  /-- $16 ASL zp,X (R200). -/
  | aslZpx (b : Byte)
  /-- $17 SLO zp,X (R251). -/
  | sloZpx (b : Byte)
  /-- $19 ORA abs,Y (R174). -/
  | oraAby (lo hi : Byte)
  /-- $1B SLO abs,Y (R251). -/
  | sloAby (lo hi : Byte)
  /-- $1C NOP abs,X (R272). -/
  | nopAbx1C (lo hi : Byte)
  /-- $1D ORA abs,X (R174). -/
  | oraAbx (lo hi : Byte)
  /-- $1E ASL abs,X (R200). -/
  | aslAbx (lo hi : Byte)
  /-- $1F SLO abs,X (R251). -/
  | sloAbx (lo hi : Byte)
  /-- $20 JSR abs (R212). -/
  | jsrAbs (lo hi : Byte)
  /-- $21 AND (zp,X) (R173). -/
  | andIzx (b : Byte)
  /-- $23 RLA (zp,X) (R252). -/
  | rlaIzx (b : Byte)
  /-- $24 BIT zp (R176). -/
  | bitZp (b : Byte)
  /-- $25 AND zp (R173). -/
  | andZp (b : Byte)
  /-- $26 ROL zp (R202). -/
  | rolZp (b : Byte)
  /-- $27 RLA zp (R252). -/
  | rlaZp (b : Byte)
  /-- $29 AND imm (R173). -/
  | andImm (b : Byte)
  /-- $2B ANC imm (R259). -/
  | anc2B (b : Byte)
  /-- $2C BIT abs (R176). -/
  | bitAbs (lo hi : Byte)
  /-- $2D AND abs (R173). -/
  | andAbs (lo hi : Byte)
  /-- $2E ROL abs (R202). -/
  | rolAbs (lo hi : Byte)
  /-- $2F RLA abs (R252). -/
  | rlaAbs (lo hi : Byte)
  /-- $30 BMI rel (R216). -/
  | bmi (off : Byte)
  /-- $31 AND (zp),Y (R173). -/
  | andIzy (b : Byte)
  /-- $33 RLA (zp),Y (R252). -/
  | rlaIzy (b : Byte)
  /-- $34 NOP zp,X (R272). -/
  | nopZpx34 (b : Byte)
  /-- $35 AND zp,X (R173). -/
  | andZpx (b : Byte)
  /-- $36 ROL zp,X (R202). -/
  | rolZpx (b : Byte)
  /-- $37 RLA zp,X (R252). -/
  | rlaZpx (b : Byte)
  /-- $39 AND abs,Y (R173). -/
  | andAby (lo hi : Byte)
  /-- $3B RLA abs,Y (R252). -/
  | rlaAby (lo hi : Byte)
  /-- $3C NOP abs,X (R272). -/
  | nopAbx3C (lo hi : Byte)
  /-- $3D AND abs,X (R173). -/
  | andAbx (lo hi : Byte)
  /-- $3E ROL abs,X (R202). -/
  | rolAbx (lo hi : Byte)
  /-- $3F RLA abs,X (R252). -/
  | rlaAbx (lo hi : Byte)
  /-- $41 EOR (zp,X) (R175). -/
  | eorIzx (b : Byte)
  /-- $43 SRE (zp,X) (R253). -/
  | sreIzx (b : Byte)
  /-- $44 NOP zp (R272). -/
  | nopZp44 (b : Byte)
  /-- $45 EOR zp (R175). -/
  | eorZp (b : Byte)
  /-- $46 LSR zp (R201). -/
  | lsrZp (b : Byte)
  /-- $47 SRE zp (R253). -/
  | sreZp (b : Byte)
  /-- $49 EOR imm (R175). -/
  | eorImm (b : Byte)
  /-- $4B ALR imm (R260). -/
  | alrImm (b : Byte)
  /-- $4C JMP abs (R210). -/
  | jmpAbs (lo hi : Byte)
  /-- $4D EOR abs (R175). -/
  | eorAbs (lo hi : Byte)
  /-- $4E LSR abs (R201). -/
  | lsrAbs (lo hi : Byte)
  /-- $4F SRE abs (R253). -/
  | sreAbs (lo hi : Byte)
  /-- $50 BVC rel (R217). -/
  | bvc (off : Byte)
  /-- $51 EOR (zp),Y (R175). -/
  | eorIzy (b : Byte)
  /-- $53 SRE (zp),Y (R253). -/
  | sreIzy (b : Byte)
  /-- $54 NOP zp,X (R272). -/
  | nopZpx54 (b : Byte)
  /-- $55 EOR zp,X (R175). -/
  | eorZpx (b : Byte)
  /-- $56 LSR zp,X (R201). -/
  | lsrZpx (b : Byte)
  /-- $57 SRE zp,X (R253). -/
  | sreZpx (b : Byte)
  /-- $59 EOR abs,Y (R175). -/
  | eorAby (lo hi : Byte)
  /-- $5B SRE abs,Y (R253). -/
  | sreAby (lo hi : Byte)
  /-- $5C NOP abs,X (R272). -/
  | nopAbx5C (lo hi : Byte)
  /-- $5D EOR abs,X (R175). -/
  | eorAbx (lo hi : Byte)
  /-- $5E LSR abs,X (R201). -/
  | lsrAbx (lo hi : Byte)
  /-- $5F SRE abs,X (R253). -/
  | sreAbx (lo hi : Byte)
  /-- $61 ADC (zp,X) (R171). -/
  | adcIzx (b : Byte)
  /-- $63 RRA (zp,X) (R254). -/
  | rraIzx (b : Byte)
  /-- $64 NOP zp (R272). -/
  | nopZp64 (b : Byte)
  /-- $65 ADC zp (R171). -/
  | adcZp (b : Byte)
  /-- $66 ROR zp (R203). -/
  | rorZp (b : Byte)
  /-- $67 RRA zp (R254). -/
  | rraZp (b : Byte)
  /-- $69 ADC imm (R171). -/
  | adcImm (b : Byte)
  /-- $6B ARR imm (R261). -/
  | arrImm (b : Byte)
  /-- $6C JMP (abs) (R211). -/
  | jmpInd (lo hi : Byte)
  /-- $6D ADC abs (R171). -/
  | adcAbs (lo hi : Byte)
  /-- $6E ROR abs (R203). -/
  | rorAbs (lo hi : Byte)
  /-- $6F RRA abs (R254). -/
  | rraAbs (lo hi : Byte)
  /-- $70 BVS rel (R218). -/
  | bvs (off : Byte)
  /-- $71 ADC (zp),Y (R171). -/
  | adcIzy (b : Byte)
  /-- $73 RRA (zp),Y (R254). -/
  | rraIzy (b : Byte)
  /-- $74 NOP zp,X (R272). -/
  | nopZpx74 (b : Byte)
  /-- $75 ADC zp,X (R171). -/
  | adcZpx (b : Byte)
  /-- $76 ROR zp,X (R203). -/
  | rorZpx (b : Byte)
  /-- $77 RRA zp,X (R254). -/
  | rraZpx (b : Byte)
  /-- $79 ADC abs,Y (R171). -/
  | adcAby (lo hi : Byte)
  /-- $7B RRA abs,Y (R254). -/
  | rraAby (lo hi : Byte)
  /-- $7C NOP abs,X (R272). -/
  | nopAbx7C (lo hi : Byte)
  /-- $7D ADC abs,X (R171). -/
  | adcAbx (lo hi : Byte)
  /-- $7E ROR abs,X (R203). -/
  | rorAbx (lo hi : Byte)
  /-- $7F RRA abs,X (R254). -/
  | rraAbx (lo hi : Byte)
  /-- $80 NOP imm (R272). -/
  | nopImm80 (b : Byte)
  /-- $81 STA (zp,X) (R143). -/
  | staIzx (b : Byte)
  /-- $82 NOP imm (R272). -/
  | nopImm82 (b : Byte)
  /-- $83 SAX (zp,X) (R255). -/
  | saxIzx (b : Byte)
  /-- $84 STY zp (R145). -/
  | styZp (b : Byte)
  /-- $85 STA zp (R143). -/
  | staZp (b : Byte)
  /-- $86 STX zp (R144). -/
  | stxZp (b : Byte)
  /-- $87 SAX zp (R255). -/
  | saxZp (b : Byte)
  /-- $89 NOP imm (R272). -/
  | nopImm89 (b : Byte)
  /-- $8B ANE imm (R264). -/
  | aneImm (b : Byte)
  /-- $8C STY abs (R145). -/
  | styAbs (lo hi : Byte)
  /-- $8D STA abs (R143). -/
  | staAbs (lo hi : Byte)
  /-- $8E STX abs (R144). -/
  | stxAbs (lo hi : Byte)
  /-- $8F SAX abs (R255). -/
  | saxAbs (lo hi : Byte)
  /-- $90 BCC rel (R219). -/
  | bcc (off : Byte)
  /-- $91 STA (zp),Y (R143). -/
  | staIzy (b : Byte)
  /-- $93 SHA (zp),Y (R268). -/
  | shaIzy (b : Byte)
  /-- $94 STY zp,X (R145). -/
  | styZpx (b : Byte)
  /-- $95 STA zp,X (R143). -/
  | staZpx (b : Byte)
  /-- $96 STX zp,Y (R144). -/
  | stxZpy (b : Byte)
  /-- $97 SAX zp,Y (R255). -/
  | saxZpy (b : Byte)
  /-- $99 STA abs,Y (R143). -/
  | staAby (lo hi : Byte)
  /-- $9B TAS abs,Y (R271). -/
  | tasAby (lo hi : Byte)
  /-- $9C SHY abs,X (R270). -/
  | shyAbx (lo hi : Byte)
  /-- $9D STA abs,X (R143). -/
  | staAbx (lo hi : Byte)
  /-- $9E SHX abs,Y (R269). -/
  | shxAby (lo hi : Byte)
  /-- $9F SHA abs,Y (R268). -/
  | shaAby (lo hi : Byte)
  /-- $A0 LDY imm (R142). -/
  | ldyImm (b : Byte)
  /-- $A1 LDA (zp,X) (R140). -/
  | ldaIzx (b : Byte)
  /-- $A2 LDX imm (R141). -/
  | ldxImm (b : Byte)
  /-- $A3 LAX (zp,X) (R256). -/
  | laxIzx (b : Byte)
  /-- $A4 LDY zp (R142). -/
  | ldyZp (b : Byte)
  /-- $A5 LDA zp (R140). -/
  | ldaZp (b : Byte)
  /-- $A6 LDX zp (R141). -/
  | ldxZp (b : Byte)
  /-- $A7 LAX zp (R256). -/
  | laxZp (b : Byte)
  /-- $A9 LDA imm (R140). -/
  | ldaImm (b : Byte)
  /-- $AB LXA imm (R265). -/
  | lxaImm (b : Byte)
  /-- $AC LDY abs (R142). -/
  | ldyAbs (lo hi : Byte)
  /-- $AD LDA abs (R140). -/
  | ldaAbs (lo hi : Byte)
  /-- $AE LDX abs (R141). -/
  | ldxAbs (lo hi : Byte)
  /-- $AF LAX abs (R256). -/
  | laxAbs (lo hi : Byte)
  /-- $B0 BCS rel (R220). -/
  | bcs (off : Byte)
  /-- $B1 LDA (zp),Y (R140). -/
  | ldaIzy (b : Byte)
  /-- $B3 LAX (zp),Y (R256). -/
  | laxIzy (b : Byte)
  /-- $B4 LDY zp,X (R142). -/
  | ldyZpx (b : Byte)
  /-- $B5 LDA zp,X (R140). -/
  | ldaZpx (b : Byte)
  /-- $B6 LDX zp,Y (R141). -/
  | ldxZpy (b : Byte)
  /-- $B7 LAX zp,Y (R256). -/
  | laxZpy (b : Byte)
  /-- $B9 LDA abs,Y (R140). -/
  | ldaAby (lo hi : Byte)
  /-- $BB LAS abs,Y (R266). -/
  | lasAby (lo hi : Byte)
  /-- $BC LDY abs,X (R142). -/
  | ldyAbx (lo hi : Byte)
  /-- $BD LDA abs,X (R140). -/
  | ldaAbx (lo hi : Byte)
  /-- $BE LDX abs,Y (R141). -/
  | ldxAby (lo hi : Byte)
  /-- $BF LAX abs,Y (R256). -/
  | laxAby (lo hi : Byte)
  /-- $C0 CPY imm (R180). -/
  | cpyImm (b : Byte)
  /-- $C1 CMP (zp,X) (R178). -/
  | cmpIzx (b : Byte)
  /-- $C2 NOP imm (R272). -/
  | nopImmC2 (b : Byte)
  /-- $C3 DCP (zp,X) (R257). -/
  | dcpIzx (b : Byte)
  /-- $C4 CPY zp (R180). -/
  | cpyZp (b : Byte)
  /-- $C5 CMP zp (R178). -/
  | cmpZp (b : Byte)
  /-- $C6 DEC zp (R182). -/
  | decZp (b : Byte)
  /-- $C7 DCP zp (R257). -/
  | dcpZp (b : Byte)
  /-- $C9 CMP imm (R178). -/
  | cmpImm (b : Byte)
  /-- $CB SBX imm (R262). -/
  | sbxImm (b : Byte)
  /-- $CC CPY abs (R180). -/
  | cpyAbs (lo hi : Byte)
  /-- $CD CMP abs (R178). -/
  | cmpAbs (lo hi : Byte)
  /-- $CE DEC abs (R182). -/
  | decAbs (lo hi : Byte)
  /-- $CF DCP abs (R257). -/
  | dcpAbs (lo hi : Byte)
  /-- $D0 BNE rel (R221). -/
  | bne (off : Byte)
  /-- $D1 CMP (zp),Y (R178). -/
  | cmpIzy (b : Byte)
  /-- $D3 DCP (zp),Y (R257). -/
  | dcpIzy (b : Byte)
  /-- $D4 NOP zp,X (R272). -/
  | nopZpxD4 (b : Byte)
  /-- $D5 CMP zp,X (R178). -/
  | cmpZpx (b : Byte)
  /-- $D6 DEC zp,X (R182). -/
  | decZpx (b : Byte)
  /-- $D7 DCP zp,X (R257). -/
  | dcpZpx (b : Byte)
  /-- $D9 CMP abs,Y (R178). -/
  | cmpAby (lo hi : Byte)
  /-- $DB DCP abs,Y (R257). -/
  | dcpAby (lo hi : Byte)
  /-- $DC NOP abs,X (R272). -/
  | nopAbxDC (lo hi : Byte)
  /-- $DD CMP abs,X (R178). -/
  | cmpAbx (lo hi : Byte)
  /-- $DE DEC abs,X (R182). -/
  | decAbx (lo hi : Byte)
  /-- $DF DCP abs,X (R257). -/
  | dcpAbx (lo hi : Byte)
  /-- $E0 CPX imm (R179). -/
  | cpxImm (b : Byte)
  /-- $E1 SBC (zp,X) (R172). -/
  | sbcIzx (b : Byte)
  /-- $E2 NOP imm (R272). -/
  | nopImmE2 (b : Byte)
  /-- $E3 ISC (zp,X) (R258). -/
  | iscIzx (b : Byte)
  /-- $E4 CPX zp (R179). -/
  | cpxZp (b : Byte)
  /-- $E5 SBC zp (R172). -/
  | sbcZp (b : Byte)
  /-- $E6 INC zp (R181). -/
  | incZp (b : Byte)
  /-- $E7 ISC zp (R258). -/
  | iscZp (b : Byte)
  /-- $E9 SBC imm (R172). -/
  | sbcImm (b : Byte)
  /-- $EB USBC imm (R263). -/
  | usbcImm (b : Byte)
  /-- $EC CPX abs (R179). -/
  | cpxAbs (lo hi : Byte)
  /-- $ED SBC abs (R172). -/
  | sbcAbs (lo hi : Byte)
  /-- $EE INC abs (R181). -/
  | incAbs (lo hi : Byte)
  /-- $EF ISC abs (R258). -/
  | iscAbs (lo hi : Byte)
  /-- $F0 BEQ rel (R222). -/
  | beq (off : Byte)
  /-- $F1 SBC (zp),Y (R172). -/
  | sbcIzy (b : Byte)
  /-- $F3 ISC (zp),Y (R258). -/
  | iscIzy (b : Byte)
  /-- $F4 NOP zp,X (R272). -/
  | nopZpxF4 (b : Byte)
  /-- $F5 SBC zp,X (R172). -/
  | sbcZpx (b : Byte)
  /-- $F6 INC zp,X (R181). -/
  | incZpx (b : Byte)
  /-- $F7 ISC zp,X (R258). -/
  | iscZpx (b : Byte)
  /-- $F9 SBC abs,Y (R172). -/
  | sbcAby (lo hi : Byte)
  /-- $FB ISC abs,Y (R258). -/
  | iscAby (lo hi : Byte)
  /-- $FC NOP abs,X (R272). -/
  | nopAbxFC (lo hi : Byte)
  /-- $FD SBC abs,X (R172). -/
  | sbcAbx (lo hi : Byte)
  /-- $FE INC abs,X (R181). -/
  | incAbx (lo hi : Byte)
  /-- $FF ISC abs,X (R258). -/
  | iscAbx (lo hi : Byte)
  /-- $00 BRK impl (R223). -/
  | brk
  /-- $02 JAM impl (R273). -/
  | jam02
  /-- $08 PHP impl (R163). -/
  | php
  /-- $0A ASL A (R200). -/
  | aslAcc
  /-- $12 JAM impl (R273). -/
  | jam12
  /-- $18 CLC impl (R240). -/
  | clc
  /-- $1A NOP impl (R272). -/
  | nopImp1A
  /-- $22 JAM impl (R273). -/
  | jam22
  /-- $28 PLP impl (R165). -/
  | plp
  /-- $2A ROL A (R202). -/
  | rolAcc
  /-- $32 JAM impl (R273). -/
  | jam32
  /-- $38 SEC impl (R241). -/
  | sec
  /-- $3A NOP impl (R272). -/
  | nopImp3A
  /-- $40 RTI impl (R224). -/
  | rti
  /-- $42 JAM impl (R273). -/
  | jam42
  /-- $48 PHA impl (R162). -/
  | pha
  /-- $4A LSR A (R201). -/
  | lsrAcc
  /-- $52 JAM impl (R273). -/
  | jam52
  /-- $58 CLI impl (R242). -/
  | cli
  /-- $5A NOP impl (R272). -/
  | nopImp5A
  /-- $60 RTS impl (R213). -/
  | rts
  /-- $62 JAM impl (R273). -/
  | jam62
  /-- $68 PLA impl (R164). -/
  | pla
  /-- $6A ROR A (R203). -/
  | rorAcc
  /-- $72 JAM impl (R273). -/
  | jam72
  /-- $78 SEI impl (R243). -/
  | sei
  /-- $7A NOP impl (R272). -/
  | nopImp7A
  /-- $88 DEY impl (R186). -/
  | dey
  /-- $8A TXA impl (R148). -/
  | txa
  /-- $92 JAM impl (R273). -/
  | jam92
  /-- $98 TYA impl (R149). -/
  | tya
  /-- $9A TXS impl (R151). -/
  | txs
  /-- $A8 TAY impl (R147). -/
  | tay
  /-- $AA TAX impl (R146). -/
  | tax
  /-- $B2 JAM impl (R273). -/
  | jamB2
  /-- $B8 CLV impl (R246). -/
  | clv
  /-- $BA TSX impl (R150). -/
  | tsx
  /-- $C8 INY impl (R184). -/
  | iny
  /-- $CA DEX impl (R185). -/
  | dex
  /-- $D2 JAM impl (R273). -/
  | jamD2
  /-- $D8 CLD impl (R244). -/
  | cld
  /-- $DA NOP impl (R272). -/
  | nopImpDA
  /-- $E8 INX impl (R183). -/
  | inx
  /-- $EA NOP impl (R247). -/
  | nop
  /-- $F2 JAM impl (R273). -/
  | jamF2
  /-- $F8 SED impl (R245). -/
  | sed
  /-- $FA NOP impl (R272). -/
  | nopImpFA
  deriving DecidableEq, Repr

end Sys2Proof
end

