-- ==== Sys2Proof/Machine/Dispatch.lean ====
section
/-! DEFINITION. The dispatch: one arm per constructor of `Instr`, each one direct call of its meaning. -/

namespace Sys2Proof.Machine

-- An instruction runs on the state in which its opcode and operand bytes have been fetched (Machine/Fetch.lean).
def exec (i : Instr) (s : State) : Host.Outcome State Fault Refusal :=
  match i with
  | .brk => Sys2Proof.Machine.execBrk s
  | .oraIzx b => Sys2Proof.Machine.execOraIzx b s
  | .jam02 => Sys2Proof.Machine.execJam02 s
  | .sloIzx b => Sys2Proof.Machine.execSloIzx b s
  | .nopZp04 b => Sys2Proof.Machine.execNopZp04 b s
  | .oraZp b => Sys2Proof.Machine.execOraZp b s
  | .aslZp b => Sys2Proof.Machine.execAslZp b s
  | .sloZp b => Sys2Proof.Machine.execSloZp b s
  | .php => Sys2Proof.Machine.execPhp s
  | .oraImm b => Sys2Proof.Machine.execOraImm b s
  | .aslAcc => Sys2Proof.Machine.execAslAcc s
  | .anc0B b => Sys2Proof.Machine.execAnc0B b s
  | .nopAbs0C lo hi => Sys2Proof.Machine.execNopAbs0C lo hi s
  | .oraAbs lo hi => Sys2Proof.Machine.execOraAbs lo hi s
  | .aslAbs lo hi => Sys2Proof.Machine.execAslAbs lo hi s
  | .sloAbs lo hi => Sys2Proof.Machine.execSloAbs lo hi s
  | .bpl off => Sys2Proof.Machine.execBpl off s
  | .oraIzy b => Sys2Proof.Machine.execOraIzy b s
  | .jam12 => Sys2Proof.Machine.execJam12 s
  | .sloIzy b => Sys2Proof.Machine.execSloIzy b s
  | .nopZpx14 b => Sys2Proof.Machine.execNopZpx14 b s
  | .oraZpx b => Sys2Proof.Machine.execOraZpx b s
  | .aslZpx b => Sys2Proof.Machine.execAslZpx b s
  | .sloZpx b => Sys2Proof.Machine.execSloZpx b s
  | .clc => Sys2Proof.Machine.execClc s
  | .oraAby lo hi => Sys2Proof.Machine.execOraAby lo hi s
  | .nopImp1A => Sys2Proof.Machine.execNopImp1A s
  | .sloAby lo hi => Sys2Proof.Machine.execSloAby lo hi s
  | .nopAbx1C lo hi => Sys2Proof.Machine.execNopAbx1C lo hi s
  | .oraAbx lo hi => Sys2Proof.Machine.execOraAbx lo hi s
  | .aslAbx lo hi => Sys2Proof.Machine.execAslAbx lo hi s
  | .sloAbx lo hi => Sys2Proof.Machine.execSloAbx lo hi s
  | .jsrAbs lo _ => Sys2Proof.Machine.execJsrAbs lo s
  | .andIzx b => Sys2Proof.Machine.execAndIzx b s
  | .jam22 => Sys2Proof.Machine.execJam22 s
  | .rlaIzx b => Sys2Proof.Machine.execRlaIzx b s
  | .bitZp b => Sys2Proof.Machine.execBitZp b s
  | .andZp b => Sys2Proof.Machine.execAndZp b s
  | .rolZp b => Sys2Proof.Machine.execRolZp b s
  | .rlaZp b => Sys2Proof.Machine.execRlaZp b s
  | .plp => Sys2Proof.Machine.execPlp s
  | .andImm b => Sys2Proof.Machine.execAndImm b s
  | .rolAcc => Sys2Proof.Machine.execRolAcc s
  | .anc2B b => Sys2Proof.Machine.execAnc2B b s
  | .bitAbs lo hi => Sys2Proof.Machine.execBitAbs lo hi s
  | .andAbs lo hi => Sys2Proof.Machine.execAndAbs lo hi s
  | .rolAbs lo hi => Sys2Proof.Machine.execRolAbs lo hi s
  | .rlaAbs lo hi => Sys2Proof.Machine.execRlaAbs lo hi s
  | .bmi off => Sys2Proof.Machine.execBmi off s
  | .andIzy b => Sys2Proof.Machine.execAndIzy b s
  | .jam32 => Sys2Proof.Machine.execJam32 s
  | .rlaIzy b => Sys2Proof.Machine.execRlaIzy b s
  | .nopZpx34 b => Sys2Proof.Machine.execNopZpx34 b s
  | .andZpx b => Sys2Proof.Machine.execAndZpx b s
  | .rolZpx b => Sys2Proof.Machine.execRolZpx b s
  | .rlaZpx b => Sys2Proof.Machine.execRlaZpx b s
  | .sec => Sys2Proof.Machine.execSec s
  | .andAby lo hi => Sys2Proof.Machine.execAndAby lo hi s
  | .nopImp3A => Sys2Proof.Machine.execNopImp3A s
  | .rlaAby lo hi => Sys2Proof.Machine.execRlaAby lo hi s
  | .nopAbx3C lo hi => Sys2Proof.Machine.execNopAbx3C lo hi s
  | .andAbx lo hi => Sys2Proof.Machine.execAndAbx lo hi s
  | .rolAbx lo hi => Sys2Proof.Machine.execRolAbx lo hi s
  | .rlaAbx lo hi => Sys2Proof.Machine.execRlaAbx lo hi s
  | .rti => Sys2Proof.Machine.execRti s
  | .eorIzx b => Sys2Proof.Machine.execEorIzx b s
  | .jam42 => Sys2Proof.Machine.execJam42 s
  | .sreIzx b => Sys2Proof.Machine.execSreIzx b s
  | .nopZp44 b => Sys2Proof.Machine.execNopZp44 b s
  | .eorZp b => Sys2Proof.Machine.execEorZp b s
  | .lsrZp b => Sys2Proof.Machine.execLsrZp b s
  | .sreZp b => Sys2Proof.Machine.execSreZp b s
  | .pha => Sys2Proof.Machine.execPha s
  | .eorImm b => Sys2Proof.Machine.execEorImm b s
  | .lsrAcc => Sys2Proof.Machine.execLsrAcc s
  | .alrImm b => Sys2Proof.Machine.execAlrImm b s
  | .jmpAbs lo hi => Sys2Proof.Machine.execJmpAbs lo hi s
  | .eorAbs lo hi => Sys2Proof.Machine.execEorAbs lo hi s
  | .lsrAbs lo hi => Sys2Proof.Machine.execLsrAbs lo hi s
  | .sreAbs lo hi => Sys2Proof.Machine.execSreAbs lo hi s
  | .bvc off => Sys2Proof.Machine.execBvc off s
  | .eorIzy b => Sys2Proof.Machine.execEorIzy b s
  | .jam52 => Sys2Proof.Machine.execJam52 s
  | .sreIzy b => Sys2Proof.Machine.execSreIzy b s
  | .nopZpx54 b => Sys2Proof.Machine.execNopZpx54 b s
  | .eorZpx b => Sys2Proof.Machine.execEorZpx b s
  | .lsrZpx b => Sys2Proof.Machine.execLsrZpx b s
  | .sreZpx b => Sys2Proof.Machine.execSreZpx b s
  | .cli => Sys2Proof.Machine.execCli s
  | .eorAby lo hi => Sys2Proof.Machine.execEorAby lo hi s
  | .nopImp5A => Sys2Proof.Machine.execNopImp5A s
  | .sreAby lo hi => Sys2Proof.Machine.execSreAby lo hi s
  | .nopAbx5C lo hi => Sys2Proof.Machine.execNopAbx5C lo hi s
  | .eorAbx lo hi => Sys2Proof.Machine.execEorAbx lo hi s
  | .lsrAbx lo hi => Sys2Proof.Machine.execLsrAbx lo hi s
  | .sreAbx lo hi => Sys2Proof.Machine.execSreAbx lo hi s
  | .rts => Sys2Proof.Machine.execRts s
  | .adcIzx b => Sys2Proof.Machine.execAdcIzx b s
  | .jam62 => Sys2Proof.Machine.execJam62 s
  | .rraIzx b => Sys2Proof.Machine.execRraIzx b s
  | .nopZp64 b => Sys2Proof.Machine.execNopZp64 b s
  | .adcZp b => Sys2Proof.Machine.execAdcZp b s
  | .rorZp b => Sys2Proof.Machine.execRorZp b s
  | .rraZp b => Sys2Proof.Machine.execRraZp b s
  | .pla => Sys2Proof.Machine.execPla s
  | .adcImm b => Sys2Proof.Machine.execAdcImm b s
  | .rorAcc => Sys2Proof.Machine.execRorAcc s
  | .arrImm b => Sys2Proof.Machine.execArrImm b s
  | .jmpInd lo hi => Sys2Proof.Machine.execJmpInd lo hi s
  | .adcAbs lo hi => Sys2Proof.Machine.execAdcAbs lo hi s
  | .rorAbs lo hi => Sys2Proof.Machine.execRorAbs lo hi s
  | .rraAbs lo hi => Sys2Proof.Machine.execRraAbs lo hi s
  | .bvs off => Sys2Proof.Machine.execBvs off s
  | .adcIzy b => Sys2Proof.Machine.execAdcIzy b s
  | .jam72 => Sys2Proof.Machine.execJam72 s
  | .rraIzy b => Sys2Proof.Machine.execRraIzy b s
  | .nopZpx74 b => Sys2Proof.Machine.execNopZpx74 b s
  | .adcZpx b => Sys2Proof.Machine.execAdcZpx b s
  | .rorZpx b => Sys2Proof.Machine.execRorZpx b s
  | .rraZpx b => Sys2Proof.Machine.execRraZpx b s
  | .sei => Sys2Proof.Machine.execSei s
  | .adcAby lo hi => Sys2Proof.Machine.execAdcAby lo hi s
  | .nopImp7A => Sys2Proof.Machine.execNopImp7A s
  | .rraAby lo hi => Sys2Proof.Machine.execRraAby lo hi s
  | .nopAbx7C lo hi => Sys2Proof.Machine.execNopAbx7C lo hi s
  | .adcAbx lo hi => Sys2Proof.Machine.execAdcAbx lo hi s
  | .rorAbx lo hi => Sys2Proof.Machine.execRorAbx lo hi s
  | .rraAbx lo hi => Sys2Proof.Machine.execRraAbx lo hi s
  | .nopImm80 b => Sys2Proof.Machine.execNopImm80 b s
  | .staIzx b => Sys2Proof.Machine.execStaIzx b s
  | .nopImm82 b => Sys2Proof.Machine.execNopImm82 b s
  | .saxIzx b => Sys2Proof.Machine.execSaxIzx b s
  | .styZp b => Sys2Proof.Machine.execStyZp b s
  | .staZp b => Sys2Proof.Machine.execStaZp b s
  | .stxZp b => Sys2Proof.Machine.execStxZp b s
  | .saxZp b => Sys2Proof.Machine.execSaxZp b s
  | .dey => Sys2Proof.Machine.execDey s
  | .nopImm89 b => Sys2Proof.Machine.execNopImm89 b s
  | .txa => Sys2Proof.Machine.execTxa s
  | .aneImm b => Sys2Proof.Machine.execAneImm b s
  | .styAbs lo hi => Sys2Proof.Machine.execStyAbs lo hi s
  | .staAbs lo hi => Sys2Proof.Machine.execStaAbs lo hi s
  | .stxAbs lo hi => Sys2Proof.Machine.execStxAbs lo hi s
  | .saxAbs lo hi => Sys2Proof.Machine.execSaxAbs lo hi s
  | .bcc off => Sys2Proof.Machine.execBcc off s
  | .staIzy b => Sys2Proof.Machine.execStaIzy b s
  | .jam92 => Sys2Proof.Machine.execJam92 s
  | .shaIzy b => Sys2Proof.Machine.execShaIzy b s
  | .styZpx b => Sys2Proof.Machine.execStyZpx b s
  | .staZpx b => Sys2Proof.Machine.execStaZpx b s
  | .stxZpy b => Sys2Proof.Machine.execStxZpy b s
  | .saxZpy b => Sys2Proof.Machine.execSaxZpy b s
  | .tya => Sys2Proof.Machine.execTya s
  | .staAby lo hi => Sys2Proof.Machine.execStaAby lo hi s
  | .txs => Sys2Proof.Machine.execTxs s
  | .tasAby lo hi => Sys2Proof.Machine.execTasAby lo hi s
  | .shyAbx lo hi => Sys2Proof.Machine.execShyAbx lo hi s
  | .staAbx lo hi => Sys2Proof.Machine.execStaAbx lo hi s
  | .shxAby lo hi => Sys2Proof.Machine.execShxAby lo hi s
  | .shaAby lo hi => Sys2Proof.Machine.execShaAby lo hi s
  | .ldyImm b => Sys2Proof.Machine.execLdyImm b s
  | .ldaIzx b => Sys2Proof.Machine.execLdaIzx b s
  | .ldxImm b => Sys2Proof.Machine.execLdxImm b s
  | .laxIzx b => Sys2Proof.Machine.execLaxIzx b s
  | .ldyZp b => Sys2Proof.Machine.execLdyZp b s
  | .ldaZp b => Sys2Proof.Machine.execLdaZp b s
  | .ldxZp b => Sys2Proof.Machine.execLdxZp b s
  | .laxZp b => Sys2Proof.Machine.execLaxZp b s
  | .tay => Sys2Proof.Machine.execTay s
  | .ldaImm b => Sys2Proof.Machine.execLdaImm b s
  | .tax => Sys2Proof.Machine.execTax s
  | .lxaImm b => Sys2Proof.Machine.execLxaImm b s
  | .ldyAbs lo hi => Sys2Proof.Machine.execLdyAbs lo hi s
  | .ldaAbs lo hi => Sys2Proof.Machine.execLdaAbs lo hi s
  | .ldxAbs lo hi => Sys2Proof.Machine.execLdxAbs lo hi s
  | .laxAbs lo hi => Sys2Proof.Machine.execLaxAbs lo hi s
  | .bcs off => Sys2Proof.Machine.execBcs off s
  | .ldaIzy b => Sys2Proof.Machine.execLdaIzy b s
  | .jamB2 => Sys2Proof.Machine.execJamB2 s
  | .laxIzy b => Sys2Proof.Machine.execLaxIzy b s
  | .ldyZpx b => Sys2Proof.Machine.execLdyZpx b s
  | .ldaZpx b => Sys2Proof.Machine.execLdaZpx b s
  | .ldxZpy b => Sys2Proof.Machine.execLdxZpy b s
  | .laxZpy b => Sys2Proof.Machine.execLaxZpy b s
  | .clv => Sys2Proof.Machine.execClv s
  | .ldaAby lo hi => Sys2Proof.Machine.execLdaAby lo hi s
  | .tsx => Sys2Proof.Machine.execTsx s
  | .lasAby lo hi => Sys2Proof.Machine.execLasAby lo hi s
  | .ldyAbx lo hi => Sys2Proof.Machine.execLdyAbx lo hi s
  | .ldaAbx lo hi => Sys2Proof.Machine.execLdaAbx lo hi s
  | .ldxAby lo hi => Sys2Proof.Machine.execLdxAby lo hi s
  | .laxAby lo hi => Sys2Proof.Machine.execLaxAby lo hi s
  | .cpyImm b => Sys2Proof.Machine.execCpyImm b s
  | .cmpIzx b => Sys2Proof.Machine.execCmpIzx b s
  | .nopImmC2 b => Sys2Proof.Machine.execNopImmC2 b s
  | .dcpIzx b => Sys2Proof.Machine.execDcpIzx b s
  | .cpyZp b => Sys2Proof.Machine.execCpyZp b s
  | .cmpZp b => Sys2Proof.Machine.execCmpZp b s
  | .decZp b => Sys2Proof.Machine.execDecZp b s
  | .dcpZp b => Sys2Proof.Machine.execDcpZp b s
  | .iny => Sys2Proof.Machine.execIny s
  | .cmpImm b => Sys2Proof.Machine.execCmpImm b s
  | .dex => Sys2Proof.Machine.execDex s
  | .sbxImm b => Sys2Proof.Machine.execSbxImm b s
  | .cpyAbs lo hi => Sys2Proof.Machine.execCpyAbs lo hi s
  | .cmpAbs lo hi => Sys2Proof.Machine.execCmpAbs lo hi s
  | .decAbs lo hi => Sys2Proof.Machine.execDecAbs lo hi s
  | .dcpAbs lo hi => Sys2Proof.Machine.execDcpAbs lo hi s
  | .bne off => Sys2Proof.Machine.execBne off s
  | .cmpIzy b => Sys2Proof.Machine.execCmpIzy b s
  | .jamD2 => Sys2Proof.Machine.execJamD2 s
  | .dcpIzy b => Sys2Proof.Machine.execDcpIzy b s
  | .nopZpxD4 b => Sys2Proof.Machine.execNopZpxD4 b s
  | .cmpZpx b => Sys2Proof.Machine.execCmpZpx b s
  | .decZpx b => Sys2Proof.Machine.execDecZpx b s
  | .dcpZpx b => Sys2Proof.Machine.execDcpZpx b s
  | .cld => Sys2Proof.Machine.execCld s
  | .cmpAby lo hi => Sys2Proof.Machine.execCmpAby lo hi s
  | .nopImpDA => Sys2Proof.Machine.execNopImpDA s
  | .dcpAby lo hi => Sys2Proof.Machine.execDcpAby lo hi s
  | .nopAbxDC lo hi => Sys2Proof.Machine.execNopAbxDC lo hi s
  | .cmpAbx lo hi => Sys2Proof.Machine.execCmpAbx lo hi s
  | .decAbx lo hi => Sys2Proof.Machine.execDecAbx lo hi s
  | .dcpAbx lo hi => Sys2Proof.Machine.execDcpAbx lo hi s
  | .cpxImm b => Sys2Proof.Machine.execCpxImm b s
  | .sbcIzx b => Sys2Proof.Machine.execSbcIzx b s
  | .nopImmE2 b => Sys2Proof.Machine.execNopImmE2 b s
  | .iscIzx b => Sys2Proof.Machine.execIscIzx b s
  | .cpxZp b => Sys2Proof.Machine.execCpxZp b s
  | .sbcZp b => Sys2Proof.Machine.execSbcZp b s
  | .incZp b => Sys2Proof.Machine.execIncZp b s
  | .iscZp b => Sys2Proof.Machine.execIscZp b s
  | .inx => Sys2Proof.Machine.execInx s
  | .sbcImm b => Sys2Proof.Machine.execSbcImm b s
  | .nop => Sys2Proof.Machine.execNop s
  | .usbcImm b => Sys2Proof.Machine.execUsbcImm b s
  | .cpxAbs lo hi => Sys2Proof.Machine.execCpxAbs lo hi s
  | .sbcAbs lo hi => Sys2Proof.Machine.execSbcAbs lo hi s
  | .incAbs lo hi => Sys2Proof.Machine.execIncAbs lo hi s
  | .iscAbs lo hi => Sys2Proof.Machine.execIscAbs lo hi s
  | .beq off => Sys2Proof.Machine.execBeq off s
  | .sbcIzy b => Sys2Proof.Machine.execSbcIzy b s
  | .jamF2 => Sys2Proof.Machine.execJamF2 s
  | .iscIzy b => Sys2Proof.Machine.execIscIzy b s
  | .nopZpxF4 b => Sys2Proof.Machine.execNopZpxF4 b s
  | .sbcZpx b => Sys2Proof.Machine.execSbcZpx b s
  | .incZpx b => Sys2Proof.Machine.execIncZpx b s
  | .iscZpx b => Sys2Proof.Machine.execIscZpx b s
  | .sed => Sys2Proof.Machine.execSed s
  | .sbcAby lo hi => Sys2Proof.Machine.execSbcAby lo hi s
  | .nopImpFA => Sys2Proof.Machine.execNopImpFA s
  | .iscAby lo hi => Sys2Proof.Machine.execIscAby lo hi s
  | .nopAbxFC lo hi => Sys2Proof.Machine.execNopAbxFC lo hi s
  | .sbcAbx lo hi => Sys2Proof.Machine.execSbcAbx lo hi s
  | .incAbx lo hi => Sys2Proof.Machine.execIncAbx lo hi s
  | .iscAbx lo hi => Sys2Proof.Machine.execIscAbx lo hi s

end Sys2Proof.Machine
end

