-- ==== Sys2Proof/Machine/Dma.lean ====
section
/-! DEFINITION. OAM DMA (60_exceptions R328; 92_eei_decisions D21, D44). -/

namespace Sys2Proof.Machine

/-- OAMDATA's address. -/
def oamDataAddr : Addr := 0x2004

/-- Copying the last `n` bytes of a page to OAMDATA: for each a real read, then a real write. -/
def Bus.dmaCopy (page : Byte) : Nat → Bus → Bus
  | 0, b => b
  | n + 1, b =>
    let r := b.read (mkAddr page (BitVec.ofNat 8 (256 - (n + 1))))
    Bus.dmaCopy page n (r.2.write oamDataAddr r.1)

/-- The stall: 513 cycles, 514 if `cycles` is odd after the instruction. -/
def dmaStall (cycles : Nat) : Nat :=
  513 + cycles % 2

/-- Running the DMA that this step requested, if it requested one: all 256 bytes, and the stall counted. -/
def State.runDma (s : State) : State :=
  match s.bus.dmaRequest with
  | none => s
  | some page =>
    let stall := dmaStall s.cpu.cycles
    { s with
      cpu := { s.cpu with cycles := s.cpu.cycles + stall }
      bus := { Bus.dmaCopy page 256 s.bus with dmaRequest := none }
      stepCycles := s.stepCycles + stall }

end Sys2Proof.Machine
end

