-- ==== Sys2Proof/WellFormed.lean ====
section
/-! DEFINITION. Well-formedness of an instruction. Its operands are bytes, so no operand can be out of range; what is left to check is whether
`ILLEGAL_POLICY` gives the instruction a meaning (30_encoding R85, R86; the `stability` column of spec/opcode_table.json). -/

namespace Sys2Proof

/-- The classes of opcode bytes (30_encoding R85, R86). -/
inductive Stability where
  | documented
  | stable
  | unstable
  | jam
  deriving DecidableEq, Repr

/-- The class of an instruction (30_encoding R85). -/
def Instr.stability : Instr → Stability
  | .brk | .oraIzx _ | .oraZp _ | .aslZp _ | .php | .oraImm _ | .aslAcc | .oraAbs _ _ | .aslAbs _ _ | .bpl _ | .oraIzy _
  | .oraZpx _ | .aslZpx _ | .clc | .oraAby _ _ | .oraAbx _ _ | .aslAbx _ _ | .jsrAbs _ _ | .andIzx _ | .bitZp _ | .andZp _
  | .rolZp _ | .plp | .andImm _ | .rolAcc | .bitAbs _ _ | .andAbs _ _ | .rolAbs _ _ | .bmi _ | .andIzy _ | .andZpx _ | .rolZpx _
  | .sec | .andAby _ _ | .andAbx _ _ | .rolAbx _ _ | .rti | .eorIzx _ | .eorZp _ | .lsrZp _ | .pha | .eorImm _ | .lsrAcc
  | .jmpAbs _ _ | .eorAbs _ _ | .lsrAbs _ _ | .bvc _ | .eorIzy _ | .eorZpx _ | .lsrZpx _ | .cli | .eorAby _ _ | .eorAbx _ _
  | .lsrAbx _ _ | .rts | .adcIzx _ | .adcZp _ | .rorZp _ | .pla | .adcImm _ | .rorAcc | .jmpInd _ _ | .adcAbs _ _ | .rorAbs _ _
  | .bvs _ | .adcIzy _ | .adcZpx _ | .rorZpx _ | .sei | .adcAby _ _ | .adcAbx _ _ | .rorAbx _ _ | .staIzx _ | .styZp _ | .staZp _
  | .stxZp _ | .dey | .txa | .styAbs _ _ | .staAbs _ _ | .stxAbs _ _ | .bcc _ | .staIzy _ | .styZpx _ | .staZpx _ | .stxZpy _
  | .tya | .staAby _ _ | .txs | .staAbx _ _ | .ldyImm _ | .ldaIzx _ | .ldxImm _ | .ldyZp _ | .ldaZp _ | .ldxZp _ | .tay
  | .ldaImm _ | .tax | .ldyAbs _ _ | .ldaAbs _ _ | .ldxAbs _ _ | .bcs _ | .ldaIzy _ | .ldyZpx _ | .ldaZpx _ | .ldxZpy _ | .clv
  | .ldaAby _ _ | .tsx | .ldyAbx _ _ | .ldaAbx _ _ | .ldxAby _ _ | .cpyImm _ | .cmpIzx _ | .cpyZp _ | .cmpZp _ | .decZp _ | .iny
  | .cmpImm _ | .dex | .cpyAbs _ _ | .cmpAbs _ _ | .decAbs _ _ | .bne _ | .cmpIzy _ | .cmpZpx _ | .decZpx _ | .cld | .cmpAby _ _
  | .cmpAbx _ _ | .decAbx _ _ | .cpxImm _ | .sbcIzx _ | .cpxZp _ | .sbcZp _ | .incZp _ | .inx | .sbcImm _ | .nop | .cpxAbs _ _
  | .sbcAbs _ _ | .incAbs _ _ | .beq _ | .sbcIzy _ | .sbcZpx _ | .incZpx _ | .sed | .sbcAby _ _ | .sbcAbx _ _ | .incAbx _ _ => .documented
  | .sloIzx _ | .nopZp04 _ | .sloZp _ | .anc0B _ | .nopAbs0C _ _ | .sloAbs _ _ | .sloIzy _ | .nopZpx14 _ | .sloZpx _ | .nopImp1A
  | .sloAby _ _ | .nopAbx1C _ _ | .sloAbx _ _ | .rlaIzx _ | .rlaZp _ | .anc2B _ | .rlaAbs _ _ | .rlaIzy _ | .nopZpx34 _
  | .rlaZpx _ | .nopImp3A | .rlaAby _ _ | .nopAbx3C _ _ | .rlaAbx _ _ | .sreIzx _ | .nopZp44 _ | .sreZp _ | .alrImm _
  | .sreAbs _ _ | .sreIzy _ | .nopZpx54 _ | .sreZpx _ | .nopImp5A | .sreAby _ _ | .nopAbx5C _ _ | .sreAbx _ _ | .rraIzx _
  | .nopZp64 _ | .rraZp _ | .arrImm _ | .rraAbs _ _ | .rraIzy _ | .nopZpx74 _ | .rraZpx _ | .nopImp7A | .rraAby _ _
  | .nopAbx7C _ _ | .rraAbx _ _ | .nopImm80 _ | .nopImm82 _ | .saxIzx _ | .saxZp _ | .nopImm89 _ | .saxAbs _ _ | .saxZpy _
  | .laxIzx _ | .laxZp _ | .laxAbs _ _ | .laxIzy _ | .laxZpy _ | .lasAby _ _ | .laxAby _ _ | .nopImmC2 _ | .dcpIzx _ | .dcpZp _
  | .sbxImm _ | .dcpAbs _ _ | .dcpIzy _ | .nopZpxD4 _ | .dcpZpx _ | .nopImpDA | .dcpAby _ _ | .nopAbxDC _ _ | .dcpAbx _ _
  | .nopImmE2 _ | .iscIzx _ | .iscZp _ | .usbcImm _ | .iscAbs _ _ | .iscIzy _ | .nopZpxF4 _ | .iscZpx _ | .nopImpFA | .iscAby _ _
  | .nopAbxFC _ _ | .iscAbx _ _ => .stable
  | .aneImm _ | .shaIzy _ | .tasAby _ _ | .shyAbx _ _ | .shxAby _ _ | .shaAby _ _ | .lxaImm _ => .unstable
  | .jam02 | .jam12 | .jam22 | .jam32 | .jam42 | .jam52 | .jam62 | .jam72 | .jam92 | .jamB2 | .jamD2 | .jamF2 => .jam

/-- The table of the policies (30_encoding R86): is an opcode of this class given a meaning? -/
def IllegalPolicy.admits : IllegalPolicy → Stability → Bool
  | .documentedOnly, .documented => true
  | .documentedOnly, .stable => false
  | .documentedOnly, .unstable => false
  | .documentedOnly, .jam => false
  | .stable, .documented => true
  | .stable, .stable => true
  | .stable, .unstable => false
  | .stable, .jam => true
  | .full, .documented => true
  | .full, .stable => true
  | .full, .unstable => true
  | .full, .jam => true

/-- The instruction has a meaning under the policy. -/
def WellFormed (policy : IllegalPolicy) (i : Instr) : Bool :=
  policy.admits i.stability

end Sys2Proof
end

