-- ==== Sys2Proof/Decode.lean ====
section
/-! DEFINITION. Decoding: the opcode map of all 256 bytes (30_encoding R84), the decoder over a list of bytes, total and rejecting by name,
and the encoder written from the same map. The opcode byte alone selects operation, mode and length (R80, R89, R90). -/

namespace Sys2Proof

/-- How many operand bytes follow an opcode, and what they make (30_encoding R81). -/
inductive Form where
  /-- Implied, accumulator and JAM: the opcode alone. -/
  | one (i : Instr)
  /-- Immediate, zero page, indirect-indexed and relative: one operand byte. -/
  | two (make : Byte → Instr)
  /-- Absolute, absolute indexed and absolute indirect: low byte, then high byte. -/
  | three (make : Byte → Byte → Instr)
  /-- JSR: three bytes, the last of which the instruction itself reads, after its pushes (45_control_transfer R212). -/
  | threeLate (make : Byte → Byte → Instr)

/-- Row $0x of the opcode map (R84). -/
def opcodeRow0 : List Form :=
  [.one .brk, .two .oraIzx, .one .jam02, .two .sloIzx,
   .two .nopZp04, .two .oraZp, .two .aslZp, .two .sloZp,
   .one .php, .two .oraImm, .one .aslAcc, .two .anc0B,
   .three .nopAbs0C, .three .oraAbs, .three .aslAbs, .three .sloAbs]

/-- Row $1x of the opcode map (R84). -/
def opcodeRow1 : List Form :=
  [.two .bpl, .two .oraIzy, .one .jam12, .two .sloIzy,
   .two .nopZpx14, .two .oraZpx, .two .aslZpx, .two .sloZpx,
   .one .clc, .three .oraAby, .one .nopImp1A, .three .sloAby,
   .three .nopAbx1C, .three .oraAbx, .three .aslAbx, .three .sloAbx]

/-- Row $2x of the opcode map (R84). -/
def opcodeRow2 : List Form :=
  [.threeLate .jsrAbs, .two .andIzx, .one .jam22, .two .rlaIzx,
   .two .bitZp, .two .andZp, .two .rolZp, .two .rlaZp,
   .one .plp, .two .andImm, .one .rolAcc, .two .anc2B,
   .three .bitAbs, .three .andAbs, .three .rolAbs, .three .rlaAbs]

/-- Row $3x of the opcode map (R84). -/
def opcodeRow3 : List Form :=
  [.two .bmi, .two .andIzy, .one .jam32, .two .rlaIzy,
   .two .nopZpx34, .two .andZpx, .two .rolZpx, .two .rlaZpx,
   .one .sec, .three .andAby, .one .nopImp3A, .three .rlaAby,
   .three .nopAbx3C, .three .andAbx, .three .rolAbx, .three .rlaAbx]

/-- Row $4x of the opcode map (R84). -/
def opcodeRow4 : List Form :=
  [.one .rti, .two .eorIzx, .one .jam42, .two .sreIzx,
   .two .nopZp44, .two .eorZp, .two .lsrZp, .two .sreZp,
   .one .pha, .two .eorImm, .one .lsrAcc, .two .alrImm,
   .three .jmpAbs, .three .eorAbs, .three .lsrAbs, .three .sreAbs]

/-- Row $5x of the opcode map (R84). -/
def opcodeRow5 : List Form :=
  [.two .bvc, .two .eorIzy, .one .jam52, .two .sreIzy,
   .two .nopZpx54, .two .eorZpx, .two .lsrZpx, .two .sreZpx,
   .one .cli, .three .eorAby, .one .nopImp5A, .three .sreAby,
   .three .nopAbx5C, .three .eorAbx, .three .lsrAbx, .three .sreAbx]

/-- Row $6x of the opcode map (R84). -/
def opcodeRow6 : List Form :=
  [.one .rts, .two .adcIzx, .one .jam62, .two .rraIzx,
   .two .nopZp64, .two .adcZp, .two .rorZp, .two .rraZp,
   .one .pla, .two .adcImm, .one .rorAcc, .two .arrImm,
   .three .jmpInd, .three .adcAbs, .three .rorAbs, .three .rraAbs]

/-- Row $7x of the opcode map (R84). -/
def opcodeRow7 : List Form :=
  [.two .bvs, .two .adcIzy, .one .jam72, .two .rraIzy,
   .two .nopZpx74, .two .adcZpx, .two .rorZpx, .two .rraZpx,
   .one .sei, .three .adcAby, .one .nopImp7A, .three .rraAby,
   .three .nopAbx7C, .three .adcAbx, .three .rorAbx, .three .rraAbx]

/-- Row $8x of the opcode map (R84). -/
def opcodeRow8 : List Form :=
  [.two .nopImm80, .two .staIzx, .two .nopImm82, .two .saxIzx,
   .two .styZp, .two .staZp, .two .stxZp, .two .saxZp,
   .one .dey, .two .nopImm89, .one .txa, .two .aneImm,
   .three .styAbs, .three .staAbs, .three .stxAbs, .three .saxAbs]

/-- Row $9x of the opcode map (R84). -/
def opcodeRow9 : List Form :=
  [.two .bcc, .two .staIzy, .one .jam92, .two .shaIzy,
   .two .styZpx, .two .staZpx, .two .stxZpy, .two .saxZpy,
   .one .tya, .three .staAby, .one .txs, .three .tasAby,
   .three .shyAbx, .three .staAbx, .three .shxAby, .three .shaAby]

/-- Row $Ax of the opcode map (R84). -/
def opcodeRowA : List Form :=
  [.two .ldyImm, .two .ldaIzx, .two .ldxImm, .two .laxIzx,
   .two .ldyZp, .two .ldaZp, .two .ldxZp, .two .laxZp,
   .one .tay, .two .ldaImm, .one .tax, .two .lxaImm,
   .three .ldyAbs, .three .ldaAbs, .three .ldxAbs, .three .laxAbs]

/-- Row $Bx of the opcode map (R84). -/
def opcodeRowB : List Form :=
  [.two .bcs, .two .ldaIzy, .one .jamB2, .two .laxIzy,
   .two .ldyZpx, .two .ldaZpx, .two .ldxZpy, .two .laxZpy,
   .one .clv, .three .ldaAby, .one .tsx, .three .lasAby,
   .three .ldyAbx, .three .ldaAbx, .three .ldxAby, .three .laxAby]

/-- Row $Cx of the opcode map (R84). -/
def opcodeRowC : List Form :=
  [.two .cpyImm, .two .cmpIzx, .two .nopImmC2, .two .dcpIzx,
   .two .cpyZp, .two .cmpZp, .two .decZp, .two .dcpZp,
   .one .iny, .two .cmpImm, .one .dex, .two .sbxImm,
   .three .cpyAbs, .three .cmpAbs, .three .decAbs, .three .dcpAbs]

/-- Row $Dx of the opcode map (R84). -/
def opcodeRowD : List Form :=
  [.two .bne, .two .cmpIzy, .one .jamD2, .two .dcpIzy,
   .two .nopZpxD4, .two .cmpZpx, .two .decZpx, .two .dcpZpx,
   .one .cld, .three .cmpAby, .one .nopImpDA, .three .dcpAby,
   .three .nopAbxDC, .three .cmpAbx, .three .decAbx, .three .dcpAbx]

/-- Row $Ex of the opcode map (R84). -/
def opcodeRowE : List Form :=
  [.two .cpxImm, .two .sbcIzx, .two .nopImmE2, .two .iscIzx,
   .two .cpxZp, .two .sbcZp, .two .incZp, .two .iscZp,
   .one .inx, .two .sbcImm, .one .nop, .two .usbcImm,
   .three .cpxAbs, .three .sbcAbs, .three .incAbs, .three .iscAbs]

/-- Row $Fx of the opcode map (R84). -/
def opcodeRowF : List Form :=
  [.two .beq, .two .sbcIzy, .one .jamF2, .two .iscIzy,
   .two .nopZpxF4, .two .sbcZpx, .two .incZpx, .two .iscZpx,
   .one .sed, .three .sbcAby, .one .nopImpFA, .three .iscAby,
   .three .nopAbxFC, .three .sbcAbx, .three .incAbx, .three .iscAbx]

/-- The opcode map: row = high nibble, column = low nibble (30_encoding R84). -/
def opcodeRows : List Form :=
  opcodeRow0 ++ opcodeRow1 ++ opcodeRow2 ++ opcodeRow3 ++ opcodeRow4 ++ opcodeRow5 ++ opcodeRow6 ++ opcodeRow7 ++
  opcodeRow8 ++ opcodeRow9 ++ opcodeRowA ++ opcodeRowB ++ opcodeRowC ++ opcodeRowD ++ opcodeRowE ++ opcodeRowF

theorem opcodeRows_length : opcodeRows.length = 256 := by
  simp only [opcodeRows, List.length_append]
  rfl

/-- The form of an opcode byte; every byte has one (30_encoding R88, R90). -/
def opcodeMap (op : Byte) : Form :=
  opcodeRows[op.toNat]'(by rw [opcodeRows_length]; exact op.isLt)

/-- Why a list of bytes is no instruction. Every opcode byte is one: only missing bytes are refused. -/
inductive DecodeError where
  /-- There is no byte. -/
  | noOpcode
  /-- The bytes end before the operand bytes of this opcode. -/
  | missingOperand (opcode : Byte)
  deriving DecidableEq, Repr

/-- The instruction that a form makes of the bytes after the opcode, and the bytes it leaves. -/
def Form.build (opcode : Byte) : Form → List Byte → Except DecodeError (Instr × List Byte)
  | .one i, rest => .ok (i, rest)
  | .two make, b :: rest => .ok (make b, rest)
  | .three make, l :: h :: rest => .ok (make l h, rest)
  | .threeLate make, l :: h :: rest => .ok (make l h, rest)
  | .two _, [] => .error (.missingOperand opcode)
  | .three _, [] => .error (.missingOperand opcode)
  | .three _, [_] => .error (.missingOperand opcode)
  | .threeLate _, [] => .error (.missingOperand opcode)
  | .threeLate _, [_] => .error (.missingOperand opcode)

/-- The instruction at the head of a list of bytes in memory order, and the bytes after it (30_encoding R80, R82, R90). -/
def decode : List Byte → Except DecodeError (Instr × List Byte)
  | [] => .error .noOpcode
  | op :: rest => (opcodeMap op).build op rest

/-- The bytes of an instruction in memory order (30_encoding R81, R82, R84). -/
def encode : Instr → List Byte
  | .brk => [0x00]
  | .oraIzx b => [0x01, b]
  | .jam02 => [0x02]
  | .sloIzx b => [0x03, b]
  | .nopZp04 b => [0x04, b]
  | .oraZp b => [0x05, b]
  | .aslZp b => [0x06, b]
  | .sloZp b => [0x07, b]
  | .php => [0x08]
  | .oraImm b => [0x09, b]
  | .aslAcc => [0x0A]
  | .anc0B b => [0x0B, b]
  | .nopAbs0C lo hi => [0x0C, lo, hi]
  | .oraAbs lo hi => [0x0D, lo, hi]
  | .aslAbs lo hi => [0x0E, lo, hi]
  | .sloAbs lo hi => [0x0F, lo, hi]
  | .bpl off => [0x10, off]
  | .oraIzy b => [0x11, b]
  | .jam12 => [0x12]
  | .sloIzy b => [0x13, b]
  | .nopZpx14 b => [0x14, b]
  | .oraZpx b => [0x15, b]
  | .aslZpx b => [0x16, b]
  | .sloZpx b => [0x17, b]
  | .clc => [0x18]
  | .oraAby lo hi => [0x19, lo, hi]
  | .nopImp1A => [0x1A]
  | .sloAby lo hi => [0x1B, lo, hi]
  | .nopAbx1C lo hi => [0x1C, lo, hi]
  | .oraAbx lo hi => [0x1D, lo, hi]
  | .aslAbx lo hi => [0x1E, lo, hi]
  | .sloAbx lo hi => [0x1F, lo, hi]
  | .jsrAbs lo hi => [0x20, lo, hi]
  | .andIzx b => [0x21, b]
  | .jam22 => [0x22]
  | .rlaIzx b => [0x23, b]
  | .bitZp b => [0x24, b]
  | .andZp b => [0x25, b]
  | .rolZp b => [0x26, b]
  | .rlaZp b => [0x27, b]
  | .plp => [0x28]
  | .andImm b => [0x29, b]
  | .rolAcc => [0x2A]
  | .anc2B b => [0x2B, b]
  | .bitAbs lo hi => [0x2C, lo, hi]
  | .andAbs lo hi => [0x2D, lo, hi]
  | .rolAbs lo hi => [0x2E, lo, hi]
  | .rlaAbs lo hi => [0x2F, lo, hi]
  | .bmi off => [0x30, off]
  | .andIzy b => [0x31, b]
  | .jam32 => [0x32]
  | .rlaIzy b => [0x33, b]
  | .nopZpx34 b => [0x34, b]
  | .andZpx b => [0x35, b]
  | .rolZpx b => [0x36, b]
  | .rlaZpx b => [0x37, b]
  | .sec => [0x38]
  | .andAby lo hi => [0x39, lo, hi]
  | .nopImp3A => [0x3A]
  | .rlaAby lo hi => [0x3B, lo, hi]
  | .nopAbx3C lo hi => [0x3C, lo, hi]
  | .andAbx lo hi => [0x3D, lo, hi]
  | .rolAbx lo hi => [0x3E, lo, hi]
  | .rlaAbx lo hi => [0x3F, lo, hi]
  | .rti => [0x40]
  | .eorIzx b => [0x41, b]
  | .jam42 => [0x42]
  | .sreIzx b => [0x43, b]
  | .nopZp44 b => [0x44, b]
  | .eorZp b => [0x45, b]
  | .lsrZp b => [0x46, b]
  | .sreZp b => [0x47, b]
  | .pha => [0x48]
  | .eorImm b => [0x49, b]
  | .lsrAcc => [0x4A]
  | .alrImm b => [0x4B, b]
  | .jmpAbs lo hi => [0x4C, lo, hi]
  | .eorAbs lo hi => [0x4D, lo, hi]
  | .lsrAbs lo hi => [0x4E, lo, hi]
  | .sreAbs lo hi => [0x4F, lo, hi]
  | .bvc off => [0x50, off]
  | .eorIzy b => [0x51, b]
  | .jam52 => [0x52]
  | .sreIzy b => [0x53, b]
  | .nopZpx54 b => [0x54, b]
  | .eorZpx b => [0x55, b]
  | .lsrZpx b => [0x56, b]
  | .sreZpx b => [0x57, b]
  | .cli => [0x58]
  | .eorAby lo hi => [0x59, lo, hi]
  | .nopImp5A => [0x5A]
  | .sreAby lo hi => [0x5B, lo, hi]
  | .nopAbx5C lo hi => [0x5C, lo, hi]
  | .eorAbx lo hi => [0x5D, lo, hi]
  | .lsrAbx lo hi => [0x5E, lo, hi]
  | .sreAbx lo hi => [0x5F, lo, hi]
  | .rts => [0x60]
  | .adcIzx b => [0x61, b]
  | .jam62 => [0x62]
  | .rraIzx b => [0x63, b]
  | .nopZp64 b => [0x64, b]
  | .adcZp b => [0x65, b]
  | .rorZp b => [0x66, b]
  | .rraZp b => [0x67, b]
  | .pla => [0x68]
  | .adcImm b => [0x69, b]
  | .rorAcc => [0x6A]
  | .arrImm b => [0x6B, b]
  | .jmpInd lo hi => [0x6C, lo, hi]
  | .adcAbs lo hi => [0x6D, lo, hi]
  | .rorAbs lo hi => [0x6E, lo, hi]
  | .rraAbs lo hi => [0x6F, lo, hi]
  | .bvs off => [0x70, off]
  | .adcIzy b => [0x71, b]
  | .jam72 => [0x72]
  | .rraIzy b => [0x73, b]
  | .nopZpx74 b => [0x74, b]
  | .adcZpx b => [0x75, b]
  | .rorZpx b => [0x76, b]
  | .rraZpx b => [0x77, b]
  | .sei => [0x78]
  | .adcAby lo hi => [0x79, lo, hi]
  | .nopImp7A => [0x7A]
  | .rraAby lo hi => [0x7B, lo, hi]
  | .nopAbx7C lo hi => [0x7C, lo, hi]
  | .adcAbx lo hi => [0x7D, lo, hi]
  | .rorAbx lo hi => [0x7E, lo, hi]
  | .rraAbx lo hi => [0x7F, lo, hi]
  | .nopImm80 b => [0x80, b]
  | .staIzx b => [0x81, b]
  | .nopImm82 b => [0x82, b]
  | .saxIzx b => [0x83, b]
  | .styZp b => [0x84, b]
  | .staZp b => [0x85, b]
  | .stxZp b => [0x86, b]
  | .saxZp b => [0x87, b]
  | .dey => [0x88]
  | .nopImm89 b => [0x89, b]
  | .txa => [0x8A]
  | .aneImm b => [0x8B, b]
  | .styAbs lo hi => [0x8C, lo, hi]
  | .staAbs lo hi => [0x8D, lo, hi]
  | .stxAbs lo hi => [0x8E, lo, hi]
  | .saxAbs lo hi => [0x8F, lo, hi]
  | .bcc off => [0x90, off]
  | .staIzy b => [0x91, b]
  | .jam92 => [0x92]
  | .shaIzy b => [0x93, b]
  | .styZpx b => [0x94, b]
  | .staZpx b => [0x95, b]
  | .stxZpy b => [0x96, b]
  | .saxZpy b => [0x97, b]
  | .tya => [0x98]
  | .staAby lo hi => [0x99, lo, hi]
  | .txs => [0x9A]
  | .tasAby lo hi => [0x9B, lo, hi]
  | .shyAbx lo hi => [0x9C, lo, hi]
  | .staAbx lo hi => [0x9D, lo, hi]
  | .shxAby lo hi => [0x9E, lo, hi]
  | .shaAby lo hi => [0x9F, lo, hi]
  | .ldyImm b => [0xA0, b]
  | .ldaIzx b => [0xA1, b]
  | .ldxImm b => [0xA2, b]
  | .laxIzx b => [0xA3, b]
  | .ldyZp b => [0xA4, b]
  | .ldaZp b => [0xA5, b]
  | .ldxZp b => [0xA6, b]
  | .laxZp b => [0xA7, b]
  | .tay => [0xA8]
  | .ldaImm b => [0xA9, b]
  | .tax => [0xAA]
  | .lxaImm b => [0xAB, b]
  | .ldyAbs lo hi => [0xAC, lo, hi]
  | .ldaAbs lo hi => [0xAD, lo, hi]
  | .ldxAbs lo hi => [0xAE, lo, hi]
  | .laxAbs lo hi => [0xAF, lo, hi]
  | .bcs off => [0xB0, off]
  | .ldaIzy b => [0xB1, b]
  | .jamB2 => [0xB2]
  | .laxIzy b => [0xB3, b]
  | .ldyZpx b => [0xB4, b]
  | .ldaZpx b => [0xB5, b]
  | .ldxZpy b => [0xB6, b]
  | .laxZpy b => [0xB7, b]
  | .clv => [0xB8]
  | .ldaAby lo hi => [0xB9, lo, hi]
  | .tsx => [0xBA]
  | .lasAby lo hi => [0xBB, lo, hi]
  | .ldyAbx lo hi => [0xBC, lo, hi]
  | .ldaAbx lo hi => [0xBD, lo, hi]
  | .ldxAby lo hi => [0xBE, lo, hi]
  | .laxAby lo hi => [0xBF, lo, hi]
  | .cpyImm b => [0xC0, b]
  | .cmpIzx b => [0xC1, b]
  | .nopImmC2 b => [0xC2, b]
  | .dcpIzx b => [0xC3, b]
  | .cpyZp b => [0xC4, b]
  | .cmpZp b => [0xC5, b]
  | .decZp b => [0xC6, b]
  | .dcpZp b => [0xC7, b]
  | .iny => [0xC8]
  | .cmpImm b => [0xC9, b]
  | .dex => [0xCA]
  | .sbxImm b => [0xCB, b]
  | .cpyAbs lo hi => [0xCC, lo, hi]
  | .cmpAbs lo hi => [0xCD, lo, hi]
  | .decAbs lo hi => [0xCE, lo, hi]
  | .dcpAbs lo hi => [0xCF, lo, hi]
  | .bne off => [0xD0, off]
  | .cmpIzy b => [0xD1, b]
  | .jamD2 => [0xD2]
  | .dcpIzy b => [0xD3, b]
  | .nopZpxD4 b => [0xD4, b]
  | .cmpZpx b => [0xD5, b]
  | .decZpx b => [0xD6, b]
  | .dcpZpx b => [0xD7, b]
  | .cld => [0xD8]
  | .cmpAby lo hi => [0xD9, lo, hi]
  | .nopImpDA => [0xDA]
  | .dcpAby lo hi => [0xDB, lo, hi]
  | .nopAbxDC lo hi => [0xDC, lo, hi]
  | .cmpAbx lo hi => [0xDD, lo, hi]
  | .decAbx lo hi => [0xDE, lo, hi]
  | .dcpAbx lo hi => [0xDF, lo, hi]
  | .cpxImm b => [0xE0, b]
  | .sbcIzx b => [0xE1, b]
  | .nopImmE2 b => [0xE2, b]
  | .iscIzx b => [0xE3, b]
  | .cpxZp b => [0xE4, b]
  | .sbcZp b => [0xE5, b]
  | .incZp b => [0xE6, b]
  | .iscZp b => [0xE7, b]
  | .inx => [0xE8]
  | .sbcImm b => [0xE9, b]
  | .nop => [0xEA]
  | .usbcImm b => [0xEB, b]
  | .cpxAbs lo hi => [0xEC, lo, hi]
  | .sbcAbs lo hi => [0xED, lo, hi]
  | .incAbs lo hi => [0xEE, lo, hi]
  | .iscAbs lo hi => [0xEF, lo, hi]
  | .beq off => [0xF0, off]
  | .sbcIzy b => [0xF1, b]
  | .jamF2 => [0xF2]
  | .iscIzy b => [0xF3, b]
  | .nopZpxF4 b => [0xF4, b]
  | .sbcZpx b => [0xF5, b]
  | .incZpx b => [0xF6, b]
  | .iscZpx b => [0xF7, b]
  | .sed => [0xF8]
  | .sbcAby lo hi => [0xF9, lo, hi]
  | .nopImpFA => [0xFA]
  | .iscAby lo hi => [0xFB, lo, hi]
  | .nopAbxFC lo hi => [0xFC, lo, hi]
  | .sbcAbx lo hi => [0xFD, lo, hi]
  | .incAbx lo hi => [0xFE, lo, hi]
  | .iscAbx lo hi => [0xFF, lo, hi]

/-- The opcode byte of an instruction. -/
def Instr.opcode (i : Instr) : Byte :=
  (encode i).headD 0

/-- The bytes of a word numbered as spec/opcode_table.json numbers it: bit 0 is the least significant bit of the first byte, bits from
`nbits` on are 0. Three bytes are the longest instruction. -/
def tableWordBytes (nbits w : Nat) : List Byte :=
  let v := w % 2 ^ nbits
  [BitVec.ofNat 8 v, BitVec.ofNat 8 (v / 256), BitVec.ofNat 8 (v / 65536)]

/-- The instruction the decoder reads from an instruction whose bits are `w`. -/
def decodeTableWord (nbits w : Nat) : Option Instr :=
  match decode (tableWordBytes nbits w) with
  | .ok r => some r.1
  | .error _ => none

end Sys2Proof
end

