-- ==== Sys2Proof/Machine/Fetch.lean ====
section
/-! DEFINITION. Fetching an instruction through the Bus: the opcode, then its operand bytes in address order, each a real bus cycle at PC
(40_addressing R100, R101). -/

namespace Sys2Proof.Machine

/-- The instruction at PC, and the state in which its opcode and operand bytes have been fetched. JSR's third byte is only peeked at, to
complete the instruction: its bus cycle comes in its meaning (45_control_transfer R212, log 14). -/
def State.fetchInstr (s : State) : Instr × State :=
  let op := s.fetchByte
  match opcodeMap op.1 with
  | .one i => (i, op.2)
  | .two make =>
    let b := op.2.fetchByte
    (make b.1, b.2)
  | .three make =>
    let l := op.2.fetchByte
    let h := l.2.fetchByte
    (make l.1 h.1, h.2)
  | .threeLate make =>
    let l := op.2.fetchByte
    (make l.1 (l.2.bus.peek l.2.cpu.pc), l.2)

end Sys2Proof.Machine
end

