-- ==== Sys2Proof/Machine/Interrupt.lean ====
section
/-! DEFINITION. Interrupts and reset: the NMI edge detector, the poll, the NMI and IRQ sequences, the reset sequence, and what the outside
world does at power-on and at a reset (60_exceptions R304 to R309; 70_reset R360 to R362). -/

namespace Sys2Proof.Machine

/-- The kinds of interrupt that a poll can return (60_exceptions R303, R307). -/
inductive Interrupt where
  | nmi
  | irq
  deriving DecidableEq, Repr

/-- The interrupt vectors (20_memory R64). -/
def nmiVector : Addr := 0xFFFA
@[inherit_doc nmiVector] def resetVector : Addr := 0xFFFC
@[inherit_doc nmiVector] def irqVector : Addr := 0xFFFE

/-- `sample_nmi()` (60_exceptions R304): a rising edge of the NMI line sets `nmi_pending`. -/
def State.sampleNmi (s : State) : State :=
  let line := s.bus.ppu.nmiLine
  s.withCpu { s.cpu with nmiPending := s.cpu.nmiPending || (line && !s.cpu.nmiPrev), nmiPrev := line }

/-- `poll()` (60_exceptions R307): NMI before IRQ, IRQ masked by `i_poll`, nothing while `poll_suppress` is 1. -/
def State.poll (s : State) : Option Interrupt :=
  if s.cpu.pollSuppress then none
  else if s.cpu.nmiPending then some .nmi
  else if s.bus.irqLine && !s.cpu.iPoll then some .irq
  else none

/-- The NMI and IRQ sequence (60_exceptions R309): the opcode at PC is fetched and discarded twice, then the entry with break bit 0. -/
def State.interruptSequence (k : Interrupt) (s : State) : State :=
  let t := s.idle.idle
  match k with
  | .nmi => (t.withCpu { t.cpu with nmiPending := false }).enterInterrupt false nmiVector
  | .irq => t.enterInterrupt false irqVector

/-- A push with the write suppressed: a read at the stack address, then S decreases (70_reset R362). -/
def State.suppressedPush (s : State) : State :=
  let t := s.dummyRead s.cpu.stackAddr
  t.withCpu { t.cpu with s := t.cpu.s - 1 }

/-- The reset sequence (70_reset R362), its seven bus cycles; `cycles` is counted by the step. -/
def State.resetSequence (s : State) : State :=
  let cleared := s.withCpu { s.cpu with resetPending := false, nmiPending := false, jammed := false }
  let pushed := cleared.idle.idle.suppressedPush.suppressedPush.suppressedPush
  let t := (pushed.setFlags { pushed.cpu.p with i := true }).loadVector resetVector
  t.withCpu { t.cpu with iPoll := true, pollSuppress := true }

/-- The host asserts RESET between two steps (70_reset R361): the next step runs the reset sequence, and the devices are put in their reset
state. Everything else is kept: RAM, the mapper, the PPU position, `vblank_flag`, $4017 and `dot_frac` as R361 says; sprite0_hit, sprite_overflow, the
frame parity, the write toggle, OAMADDR, OAM, the PPUSCROLL and PPUADDR bytes, $4000 to $4013 and the strobe, which R361 does not name, by the model's
choice (DESIGN CHOICE, log 12). An input from outside: no step does this. -/
def State.hostReset (s : State) : State :=
  { s with
    cpu := { s.cpu with resetPending := true }
    bus :=
      { s.bus with
        ppu := { s.bus.ppu with ctrl := 0, mask := 0 }
        apu := { s.bus.apu with enable := 0, frameIrq := false, dmcIrq := false } } }

/-- The CPU before the first step (70_reset R360). -/
def CpuState.powerOn (regs : PowerOnRegs) : CpuState :=
  { a := match regs with | .zero => 0 | .draw => Config.drawA
    x := match regs with | .zero => 0 | .draw => Config.drawX
    y := match regs with | .zero => 0 | .draw => Config.drawY
    s := 0x00, pc := 0x0000
    p := { c := false, z := false, i := false, d := false, v := false, n := false }
    nmiPending := false, nmiPrev := false, resetPending := true, iPoll := true, pollSuppress := false, jammed := false, cycles := 0 }

/-- Building the machine with a cartridge (70_reset R360): the state before the first step, which is the reset sequence. -/
def State.powerOn (params : Params) (regs : PowerOnRegs) (cartridge : Mapper) : State :=
  { cpu := CpuState.powerOn regs
    bus :=
      { ram := []
        openBus := 0
        ppu := PpuState.powerOn
        apu := ApuState.powerOn
        mapper := cartridge
        strobe := false
        dmaRequest := none
        log := []
        deviceReads := 0 }
    dotFrac := 0
    stepCycles := 0
    params := params }

end Sys2Proof.Machine
end

