-- ==== Sys2Proof/Machine/CpuStep.lean ====
section
/-! DEFINITION. The CPU step (60_exceptions R329): the reset sequence, a jammed idle cycle, an interrupt sequence, or one instruction. -/

namespace Sys2Proof.Machine

/-- Before a step: no access has been made and no DMA requested in it. -/
def State.beginStep (s : State) : State :=
  s.withBus { s.bus with log := [], dmaRequest := none }

/-- Counting a step's cycles: one per bus access it made (40_addressing R113). -/
def State.countCycles (s : State) : State :=
  { s with cpu := { s.cpu with cycles := s.cpu.cycles + s.bus.log.length }, stepCycles := s.bus.log.length }

/-- The instructions whose meaning sets `i_poll` to the I of before it (10_state R41; 60_exceptions R329). -/
def Instr.delaysPoll (i : Instr) : Bool :=
  decide (i = .cli ∨ i = .sei ∨ i = .plp)

/-- After an instruction: `i_poll` is the I it left, but for CLI, SEI and PLP; its cycles are counted, and a requested DMA runs. -/
def State.endInstruction (i : Instr) (s : State) : State :=
  let t := if Instr.delaysPoll i then s else s.withCpu { s.cpu with iPoll := s.cpu.p.i }
  t.countCycles.runDma

/-- One instruction (40_addressing R100; 60_exceptions R329): it is fetched and decoded, the policy is applied (30_encoding R86, R87), and its
meaning runs. -/
def State.runInstruction (s : State) : Result :=
  let f := s.fetchInstr
  if WellFormed s.params.policy f.1 then
    match exec f.1 f.2 with
    | .next t => .next (t.endInstruction f.1)
    | .fault r => .fault r
    | .refused r => .refused r
  else .refused (.illegalOpcode f.1.opcode s.cpu.pc)

/-- `step()` of the CPU (60_exceptions R329). `poll_suppress` is cleared before the instruction or sequence runs. -/
def cpuStep (s : State) : Result :=
  let t := s.beginStep
  if t.cpu.resetPending then .next t.resetSequence.countCycles
  else if t.cpu.jammed then
    .next { t with cpu := { t.cpu with cycles := t.cpu.cycles + 1 }, stepCycles := 1 }
  else
    let polled := t.withCpu { t.cpu with pollSuppress := false }
    match t.poll with
    | some k => .next (polled.interruptSequence k).countCycles.runDma
    | none => polled.runInstruction

end Sys2Proof.Machine
end

