-- ==== Sys2Proof/Machine/Scheduler.lean ====
section
/-! DEFINITION. The scheduler's part of a system tick: the PPU ticks and APU ticks owed for a CPU step (60_exceptions R330, R331). -/

namespace Sys2Proof.Machine

/-- `ppu_ticks(n)` (60_exceptions R331): 3 per cycle for NTSC, 16/5 for PAL with the remainder carried. -/
def ppuTicks (region : Region) (dotFrac n : Nat) : Nat :=
  match region with
  | .ntsc => 3 * n
  | .pal => (16 * n + dotFrac) / 5

/-- `dot_frac` after a step (60_exceptions R331). -/
def nextDotFrac (region : Region) (dotFrac n : Nat) : Nat :=
  match region with
  | .ntsc => dotFrac
  | .pal => (16 * n + dotFrac) % 5

/-- `ppu_tick()`, then `sample_nmi()` (60_exceptions R330). -/
def State.ppuTick (s : State) : State :=
  (s.withBus (s.bus.ppuTick s.params.region)).sampleNmi

/-- `apu_tick()`. -/
def State.apuTick (s : State) : State :=
  s.withBus { s.bus with apu := s.bus.apu.tick }

/-- Running a tick a number of times. -/
def repeatTick (tick : State → State) : Nat → State → State
  | 0, s => s
  | n + 1, s => repeatTick tick n (tick s)

/-- The ticks owed for a CPU step of `stepCycles` cycles: the PPU's, each followed by an NMI sample, then the APU's. -/
def State.runDevices (s : State) : State :=
  let n := s.stepCycles
  let k := ppuTicks s.params.region s.dotFrac n
  let t := repeatTick State.ppuTick k { s with dotFrac := nextDotFrac s.params.region s.dotFrac n }
  repeatTick State.apuTick n t

/-- Placing an instruction where the next step fetches: in the cartridge's PRG image at $8000, PC there, and nothing that would run before
it: no reset pending, no jam, no poll (log 18). Bits from `nbits` on are 0. -/
def State.placeWord (s : State) (nbits w : Nat) : State :=
  { s with
    cpu := { s.cpu with pc := 0x8000, resetPending := false, jammed := false, pollSuppress := true }
    bus := { s.bus with mapper := { s.bus.mapper with prg := Memory.load zeroFill s.bus.mapper.prg 0 (tableWordBytes nbits w) } } }

end Sys2Proof.Machine
end

