-- ==== Sys2Proof/Machine/Step.lean ====
section
/-! DEFINITION. The machine's step: one `system_tick` (60_exceptions R330), which is one CPU step and the device ticks owed for it. -/

namespace Sys2Proof.Machine

/-- `system_tick()` (60_exceptions R330). A PPU position outside its bounds is the spec's `InvariantViolation`, surfaced at once (R323, R336;
log 17); a refused opcode ends the run (R301). -/
def step (s : State) : Host.Outcome State Fault Refusal :=
  if s.bus.ppu.inBounds s.params.region then
    match cpuStep s with
    | .next t => .next t.runDevices
    | .fault r => .fault r
    | .refused r => .refused r
  else .fault .positionOutOfBounds

/-- `s` with an instruction stored where `step` fetches its next one (log 18). -/
def State.withFetchWord (s : State) (nbits w : Nat) : State :=
  s.placeWord nbits w

end Sys2Proof.Machine
end

