-- ==== Sys2Proof/Machine/Debug.lean ====
section
/-! DEFINITION. The debug interface (60_exceptions R334; 20_memory R66): disassembly through `Peek`, and a breakpoint predicate evaluated before
each step. None of it changes the machine. -/

namespace Sys2Proof.Machine

/-- The instruction that lies at an address, read through `Peek`. -/
def State.disassemble (a : Addr) (s : State) : Except DecodeError Instr :=
  match decode [s.bus.peek a, s.bus.peek (a + 1), s.bus.peek (a + 2)] with
  | .ok r => .ok r.1
  | .error e => .error e

/-- At most `n` steps, stopping BEFORE a step at which the breakpoint predicate holds. -/
def runToBreakpoint (breakpoint : State → Bool) : Nat → State → Result
  | 0, s => .next s
  | n + 1, s =>
    if breakpoint s then .next s
    else
      match step s with
      | .next t => runToBreakpoint breakpoint n t
      | .fault r => .fault r
      | .refused r => .refused r

end Sys2Proof.Machine
end

