-- ==== Sys2Proof/Safety.lean ====
section
/-! DEFINITION. What counts as a safe run: the invariant of the machine's state, and the states a run reaches. -/

namespace Sys2Proof.Machine

/-- Every byte store is in its canonical form: RAM of 2,048 bytes, OAM of 256, the PRG image of `PRG_SIZE`, and the APU's channel registers. -/
abbrev Bus.storesWf (b : Bus) : Prop :=
  b.ram.wf Config.ramInit 0x800 ∧ b.ppu.oam.wf Config.oamInit 256 ∧ b.mapper.prg.wf zeroFill b.mapper.prgSize.bytes ∧
    b.apu.channels.wf zeroFill 0x4018

/-- The invariant: canonical stores, the PPU position in its bounds (60_exceptions R323), the PAL remainder below 5 (R331), and no DMA request
left over between steps (R328). -/
abbrev State.Inv (s : State) : Prop :=
  s.bus.storesWf ∧ s.bus.ppu.inBounds s.params.region ∧ s.dotFrac < 5 ∧ s.bus.dmaRequest = none

end Sys2Proof.Machine
end

