-- ==== Sys2Proof/Safety/Terms.lean ====
section
/-! DEFINITION. The terms that the statements are written in: the spec's own formulas over natural numbers and integers, apart from the
bit-vector operations of the machine, and the bus cycles of each addressing mode as 40_addressing lists them. -/

namespace Sys2Proof.Machine

/-- The address with this number, modulo 65536. -/
def cell (n : Nat) : Addr :=
  BitVec.ofNat 16 n

/-- The byte with this number, modulo 256: `u8` (00_scope R10). -/
def u8 (n : Nat) : Byte :=
  BitVec.ofNat 8 n

/-- Do two addresses reach the same byte of RAM (20_memory R59)? -/
def sameRamByte (a c : Addr) : Prop :=
  a.toNat < 0x2000 ∧ c.toNat < 0x2000 ∧ a.toNat % 0x800 = c.toNat % 0x800

/-- `setNZ(v)` (00_scope R12). -/
def nz (v : Byte) (p : Flags) : Flags :=
  { p with n := decide (128 ≤ v.toNat), z := decide (v.toNat = 0) }

/-- The sum of ADC (43 R170), modulo 256. -/
def sumByte (a m : Byte) (c : Bool) : Byte :=
  u8 (a.toNat + m.toNat + c.toNat)

/-- The flags of ADC (43 R170): C when the unsigned sum passes 255, V when the signed sum lies outside -128 to 127. -/
def sumFlags (a m : Byte) (c : Bool) (p : Flags) : Flags :=
  { nz (sumByte a m c) p with
    c := decide (255 < a.toNat + m.toNat + c.toNat)
    v := decide (a.toInt + m.toInt + c.toNat < -128 ∨ 127 < a.toInt + m.toInt + c.toNat) }

/-- The difference of SBC (43 R172), `u8(A - v - (1 - C))`. -/
def diffByte (a m : Byte) (c : Bool) : Byte :=
  BitVec.ofInt 8 (a.toNat - m.toNat - (1 - c.toNat))

/-- The flags of SBC (43 R172): C when there is no borrow, V when the signed difference lies outside -128 to 127. -/
def diffFlags (a m : Byte) (c : Bool) (p : Flags) : Flags :=
  { nz (diffByte a m c) p with
    c := decide (0 ≤ (a.toNat : Int) - m.toNat - (1 - c.toNat))
    v := decide (a.toInt - m.toInt - (1 - c.toNat) < -128 ∨ 127 < a.toInt - m.toInt - (1 - c.toNat)) }

/-- The flags of a comparison of `r` with `v` (43 R177). -/
def compareFlags (r v : Byte) (p : Flags) : Flags :=
  { nz (BitVec.ofInt 8 (r.toNat - v.toNat)) p with c := decide (v.toNat ≤ r.toNat) }

/-- Bit 7 of a byte, the bit that a shift or rotate left moves out. -/
def topBit (v : Byte) : Bool :=
  decide (128 ≤ v.toNat)

/-- Bit 0 of a byte, the bit that a shift or rotate right moves out. -/
def lowBit (v : Byte) : Bool :=
  decide (v.toNat % 2 = 1)

/-- A byte shifted left, with the bit that moves in (44 R200, R202). -/
def shiftedLeft (c : Bool) (v : Byte) : Byte :=
  u8 (2 * v.toNat + c.toNat)

/-- A byte shifted right, with the bit that moves in (44 R201, R203). -/
def shiftedRight (c : Bool) (v : Byte) : Byte :=
  u8 (v.toNat / 2 + 128 * c.toNat)

/-- `Pbyte(b)` (10_state R33). -/
def statusImage (b : Bool) (p : Flags) : Byte :=
  u8 (128 * p.n.toNat + 64 * p.v.toNat + 32 + 16 * b.toNat + 8 * p.d.toNat + 4 * p.i.toNat + 2 * p.z.toNat + p.c.toNat)

/-- Bit `k` of a byte, by its number. -/
def numBit (v : Byte) (k : Nat) : Bool :=
  decide (v.toNat / 2 ^ k % 2 = 1)

/-- `Pload(v)` (10_state R34). -/
def statusLoaded (v : Byte) : Flags :=
  { n := numBit v 7, v := numBit v 6, d := numBit v 3, i := numBit v 2, z := numBit v 1, c := numBit v 0 }

/-- What an addressing mode forms (40_addressing R104 to R109): `EA`, `EAu`, the page crossing, `H`, and the Bus after the cycles that
come before the access class's own. -/
structure Formed where
  ea : Nat
  uncorrected : Nat
  crossed : Bool
  base : Nat
  bus : Bus

/-- A mode with no index to carry into the high byte. -/
def Formed.direct (ea : Nat) (b : Bus) : Formed :=
  { ea := ea, uncorrected := ea, crossed := false, base := ea / 256, bus := b }

/-- A base address and an index (40_addressing R107, R109). -/
def Formed.index (h l i : Nat) (b : Bus) : Formed :=
  { ea := (h * 256 + l + i) % 65536, uncorrected := h * 256 + (l + i) % 256, crossed := decide (255 < l + i), base := h, bus := b }

/-- The cycles of a mode after its operand bytes (40_addressing R104 to R109). -/
def formed (m : AddrMode) (c : CpuState) (b : Bus) : Formed :=
  match m with
  | .zp p => .direct p.toNat b
  | .zpx p => .direct ((p.toNat + c.x.toNat) % 256) (b.read (cell p.toNat)).2
  | .zpy p => .direct ((p.toNat + c.y.toNat) % 256) (b.read (cell p.toNat)).2
  | .abs l h => .direct (h.toNat * 256 + l.toNat) b
  | .abx l h => .index h.toNat l.toNat c.x.toNat b
  | .aby l h => .index h.toNat l.toNat c.y.toNat b
  | .izx p =>
    let q := (p.toNat + c.x.toNat) % 256
    let l := (b.read (cell p.toNat)).2.read (cell q)
    let h := l.2.read (cell ((q + 1) % 256))
    .direct (h.1.toNat * 256 + l.1.toNat) h.2
  | .izy p =>
    let l := b.read (cell p.toNat)
    let h := l.2.read (cell ((p.toNat + 1) % 256))
    .index h.1.toNat l.1.toNat c.y.toNat h.2

/-- The modes in which a write or read-modify-write instruction spends a cycle at `EAu` (40_addressing R107, R109). -/
def AddrMode.spends : AddrMode → Bool
  | .zp _ => false
  | .zpx _ => false
  | .zpy _ => false
  | .abs _ _ => false
  | .abx _ _ => true
  | .aby _ _ => true
  | .izx _ => false
  | .izy _ => true

/-- Does the operand's index addition cross a page (00_scope R15)? -/
def crosses (o : Operand) (c : CpuState) (b : Bus) : Bool :=
  match o with
  | .imm _ => false
  | .mem m => (formed m c b).crossed

/-- `Operand()` (40_addressing R118): the byte a read-class instruction obtains, and the Bus after its cycles. -/
def loaded (o : Operand) (c : CpuState) (b : Bus) : Byte × Bus :=
  match o with
  | .imm v => (v, b)
  | .mem m =>
    let f := formed m c b
    (if f.crossed then (f.bus.read (cell f.uncorrected)).2 else f.bus).read (cell f.ea)

/-- The Bus when a write or read-modify-write instruction makes its first access at `EA` (40_addressing R107, R109). -/
def reached (m : AddrMode) (c : CpuState) (b : Bus) : Bus :=
  let f := formed m c b
  if m.spends then (f.bus.read (cell f.uncorrected)).2 else f.bus

/-- `Store(v)` (40_addressing R112, R118). -/
def stored (m : AddrMode) (v : Byte) (c : CpuState) (b : Bus) : Bus :=
  (reached m c b).write (cell (formed m c b).ea) v

/-- `Modify(f)` (40_addressing R112, R118): the unmodified byte, and the Bus after the read and the two writes. -/
def modified (m : AddrMode) (f : Byte → Byte) (c : CpuState) (b : Bus) : Byte × Bus :=
  let a := cell (formed m c b).ea
  let r := (reached m c b).read a
  (r.1, (r.2.write a r.1).write a (f r.1))

/-- The value that SHA, SHX, SHY and TAS write (47 R267). -/
def highValue (m : AddrMode) (r : Byte) (c : CpuState) (b : Bus) : Byte :=
  r &&& u8 ((formed m c b).base + 1)

/-- The address that SHA, SHX, SHY and TAS write (47 R267). -/
def highTarget (m : AddrMode) (r : Byte) (c : CpuState) (b : Bus) : Addr :=
  let f := formed m c b
  cell (if f.crossed then (highValue m r c b).toNat * 256 + f.ea % 256 else f.ea)

/-- The cycles of SHA, SHX, SHY and TAS (47 R267): the read at `EAu`, always, then the write. -/
def storedHigh (m : AddrMode) (r : Byte) (c : CpuState) (b : Bus) : Bus :=
  let f := formed m c b
  (f.bus.read (cell f.uncorrected)).2.write (highTarget m r c b) (highValue m r c b)

/-- The Bus after the second cycle of implied and accumulator mode (40_addressing R102). -/
def idled (s : State) : Bus :=
  (s.bus.read s.cpu.pc).2

/-- The address of the stack slot that S names (10_state R24). -/
def stackCell (s : Byte) : Addr :=
  cell (256 + s.toNat)

/-- `Push(v)` (42_stack R160). -/
def pushed (v : Byte) (s : State) : State :=
  { s with cpu := { s.cpu with s := u8 (s.cpu.s.toNat + 255) }, bus := s.bus.write (stackCell s.cpu.s) v }

/-- `Pull()` (42_stack R161). -/
def pulled (s : State) : Byte × State :=
  let a := u8 (s.cpu.s.toNat + 1)
  let r := s.bus.read (stackCell a)
  (r.1, { s with cpu := { s.cpu with s := a }, bus := r.2 })

/-- The high and the low byte of an address. -/
def highByte (a : Addr) : Byte :=
  u8 (a.toNat / 256)
@[inherit_doc highByte] def lowByte (a : Addr) : Byte :=
  u8 (a.toNat % 256)

/-- The address with this high and low byte. -/
def joined (h l : Byte) : Addr :=
  cell (h.toNat * 256 + l.toNat)

/-- PC high, PC low and a status image pushed, in this order (60_exceptions R310). -/
def savedFrame (a : Addr) (image : Byte) (s : State) : State :=
  pushed image (pushed (lowByte a) (pushed (highByte a) s))

/-- The address a vector holds, low byte first, and the Bus after its two reads (20_memory R64). -/
def vectorRead (vector : Nat) (b : Bus) : Addr × Bus :=
  let l := b.read (cell vector)
  let h := l.2.read (cell (vector + 1))
  (joined h.1 l.1, h.2)

/-- A step's beginning: no access made and no DMA requested in it, and `poll_suppress` cleared (60_exceptions R329). -/
def started (s : State) : State :=
  { s with cpu := { s.cpu with pollSuppress := false }, bus := { s.bus with log := [], dmaRequest := none } }

/-- The state after code bytes have been fetched from storage: PC past them, each on the bus and in the log (40_addressing R101). -/
def fetched : List Byte → State → State
  | [], s => s
  | v :: rest, s =>
    fetched rest
      { s with
        cpu := { s.cpu with pc := s.cpu.pc + 1 }
        bus := { s.bus with openBus := v, log := ⟨s.cpu.pc, .read, v⟩ :: s.bus.log } }

/-- The bytes of an instruction that are fetched before its meaning runs: all of them, but for JSR's last (45 R212). -/
def fetchedFirst (i : Instr) : List Byte :=
  match i with
  | .jsrAbs l _ => [0x20, l]
  | j => encode j

/-- The state in which the meaning of the instruction at PC runs. -/
def ready (i : Instr) (s : State) : State :=
  fetched (fetchedFirst i) (started s)

/-- The next step of `s` runs the instruction `i`: no reset, jam or interrupt comes first, its bytes lie in storage at PC, and the policy gives
it a meaning. -/
structure Runs (i : Instr) (s : State) : Prop where
  noReset : s.cpu.resetPending = false
  notJammed : s.cpu.jammed = false
  noInterrupt : s.poll = none
  meaning : WellFormed s.params.policy i = true
  code : ∀ (k : Nat) (h : k < (encode i).length), s.bus.byteAt (s.cpu.pc + cell k) = some (encode i)[k]

/-- What an instruction costs: these are its code bytes, and their fetches and the accesses its meaning made of `s`'s Bus are `n` cycles in all
(40_addressing R113). -/
def costs (i : Instr) (code : List Byte) (n : Nat) (s : State) (after : Bus) : Prop :=
  encode i = code ∧ after.log.length + code.length = s.bus.log.length + n

/-- A read-class form as the opcode map gives it: its bytes, its operand, its cycles, and whether it is marked `+p`. -/
structure ReadForm where
  instr : Instr
  code : List Byte
  operand : Operand
  cycles : Nat
  plus : Bool

/-- The cost of a read-class form: its cycles, and one more for a page crossing if it is marked `+p`. -/
def ReadForm.costs (f : ReadForm) (s : State) : Prop :=
  Machine.costs f.instr f.code (f.cycles + (f.plus && crosses f.operand s.cpu s.bus).toNat) s (loaded f.operand s.cpu s.bus).2

/-- A write or read-modify-write form as the opcode map gives it. -/
structure WriteForm where
  instr : Instr
  code : List Byte
  mode : AddrMode
  cycles : Nat

/-- The state after a read-class instruction that updates the registers with its operand byte. -/
def afterLoad (o : Operand) (s : State) (update : Byte → CpuState → CpuState) : State :=
  { s with cpu := update (loaded o s.cpu s.bus).1 s.cpu, bus := (loaded o s.cpu s.bus).2 }

/-- The state after a write-class instruction. -/
def afterStore (m : AddrMode) (v : Byte) (s : State) : State :=
  { s with bus := stored m v s.cpu s.bus }

/-- The state after a read-modify-write instruction that updates the registers with the unmodified byte. -/
def afterModify (m : AddrMode) (f : Byte → Byte) (s : State) (update : Byte → CpuState → CpuState) : State :=
  { s with cpu := update (modified m f s.cpu s.bus).1 s.cpu, bus := (modified m f s.cpu s.bus).2 }

/-- The state after an implied or accumulator instruction that updates the registers. -/
def afterIdle (s : State) (update : CpuState → CpuState) : State :=
  { s with cpu := update s.cpu, bus := idled s }

/-- The PPU's position as one number, counted from the start of the pre-render line (60_exceptions R323). -/
def PpuState.position (p : PpuState) : Int :=
  (p.scanline + 1) * 341 + p.dot

/-- The PPU after a number of ticks. -/
def PpuState.ticked (region : Region) : Nat → PpuState → PpuState
  | 0, p => p
  | n + 1, p => PpuState.ticked region n (p.tick region)

end Sys2Proof.Machine
end

