-- ==== Sys2Proof/Certificates/Slice0/Obligations.lean ====
section
/-! DEFINITION. The statements about the machine. First the tables of instruction forms that they range over, as the opcode map of
30_encoding R84 and the `Encodings` lines of 41 to 47 give them: code bytes, operand, cycles, and the `+p` mark. -/

namespace Sys2Proof.Machine

/-- LDA (R140). -/
def ldaForms (b l h : Byte) : List ReadForm :=
  [⟨.ldaImm b, [0xA9, b], .imm b, 2, false⟩, ⟨.ldaZp b, [0xA5, b], .mem (.zp b), 3, false⟩,
   ⟨.ldaZpx b, [0xB5, b], .mem (.zpx b), 4, false⟩, ⟨.ldaAbs l h, [0xAD, l, h], .mem (.abs l h), 4, false⟩,
   ⟨.ldaAbx l h, [0xBD, l, h], .mem (.abx l h), 4, true⟩, ⟨.ldaAby l h, [0xB9, l, h], .mem (.aby l h), 4, true⟩,
   ⟨.ldaIzx b, [0xA1, b], .mem (.izx b), 6, false⟩, ⟨.ldaIzy b, [0xB1, b], .mem (.izy b), 5, true⟩]

/-- LDX (R141). -/
def ldxForms (b l h : Byte) : List ReadForm :=
  [⟨.ldxImm b, [0xA2, b], .imm b, 2, false⟩, ⟨.ldxZp b, [0xA6, b], .mem (.zp b), 3, false⟩,
   ⟨.ldxZpy b, [0xB6, b], .mem (.zpy b), 4, false⟩, ⟨.ldxAbs l h, [0xAE, l, h], .mem (.abs l h), 4, false⟩,
   ⟨.ldxAby l h, [0xBE, l, h], .mem (.aby l h), 4, true⟩]

/-- LDY (R142). -/
def ldyForms (b l h : Byte) : List ReadForm :=
  [⟨.ldyImm b, [0xA0, b], .imm b, 2, false⟩, ⟨.ldyZp b, [0xA4, b], .mem (.zp b), 3, false⟩,
   ⟨.ldyZpx b, [0xB4, b], .mem (.zpx b), 4, false⟩, ⟨.ldyAbs l h, [0xAC, l, h], .mem (.abs l h), 4, false⟩,
   ⟨.ldyAbx l h, [0xBC, l, h], .mem (.abx l h), 4, true⟩]

/-- STA (R143). -/
def staForms (b l h : Byte) : List WriteForm :=
  [⟨.staZp b, [0x85, b], .zp b, 3⟩, ⟨.staZpx b, [0x95, b], .zpx b, 4⟩,
   ⟨.staAbs l h, [0x8D, l, h], .abs l h, 4⟩, ⟨.staAbx l h, [0x9D, l, h], .abx l h, 5⟩,
   ⟨.staAby l h, [0x99, l, h], .aby l h, 5⟩, ⟨.staIzx b, [0x81, b], .izx b, 6⟩,
   ⟨.staIzy b, [0x91, b], .izy b, 6⟩]

/-- STX (R144). -/
def stxForms (b l h : Byte) : List WriteForm :=
  [⟨.stxZp b, [0x86, b], .zp b, 3⟩, ⟨.stxZpy b, [0x96, b], .zpy b, 4⟩,
   ⟨.stxAbs l h, [0x8E, l, h], .abs l h, 4⟩]

/-- STY (R145). -/
def styForms (b l h : Byte) : List WriteForm :=
  [⟨.styZp b, [0x84, b], .zp b, 3⟩, ⟨.styZpx b, [0x94, b], .zpx b, 4⟩,
   ⟨.styAbs l h, [0x8C, l, h], .abs l h, 4⟩]

/-- ADC (R171). -/
def adcForms (b l h : Byte) : List ReadForm :=
  [⟨.adcImm b, [0x69, b], .imm b, 2, false⟩, ⟨.adcZp b, [0x65, b], .mem (.zp b), 3, false⟩,
   ⟨.adcZpx b, [0x75, b], .mem (.zpx b), 4, false⟩, ⟨.adcAbs l h, [0x6D, l, h], .mem (.abs l h), 4, false⟩,
   ⟨.adcAbx l h, [0x7D, l, h], .mem (.abx l h), 4, true⟩, ⟨.adcAby l h, [0x79, l, h], .mem (.aby l h), 4, true⟩,
   ⟨.adcIzx b, [0x61, b], .mem (.izx b), 6, false⟩, ⟨.adcIzy b, [0x71, b], .mem (.izy b), 5, true⟩]

/-- SBC (R172). -/
def sbcForms (b l h : Byte) : List ReadForm :=
  [⟨.sbcImm b, [0xE9, b], .imm b, 2, false⟩, ⟨.sbcZp b, [0xE5, b], .mem (.zp b), 3, false⟩,
   ⟨.sbcZpx b, [0xF5, b], .mem (.zpx b), 4, false⟩, ⟨.sbcAbs l h, [0xED, l, h], .mem (.abs l h), 4, false⟩,
   ⟨.sbcAbx l h, [0xFD, l, h], .mem (.abx l h), 4, true⟩, ⟨.sbcAby l h, [0xF9, l, h], .mem (.aby l h), 4, true⟩,
   ⟨.sbcIzx b, [0xE1, b], .mem (.izx b), 6, false⟩, ⟨.sbcIzy b, [0xF1, b], .mem (.izy b), 5, true⟩]

/-- USBC (R263). -/
def usbcForms (b : Byte) : List ReadForm :=
  [⟨.usbcImm b, [0xEB, b], .imm b, 2, false⟩]

/-- AND (R173). -/
def andForms (b l h : Byte) : List ReadForm :=
  [⟨.andImm b, [0x29, b], .imm b, 2, false⟩, ⟨.andZp b, [0x25, b], .mem (.zp b), 3, false⟩,
   ⟨.andZpx b, [0x35, b], .mem (.zpx b), 4, false⟩, ⟨.andAbs l h, [0x2D, l, h], .mem (.abs l h), 4, false⟩,
   ⟨.andAbx l h, [0x3D, l, h], .mem (.abx l h), 4, true⟩, ⟨.andAby l h, [0x39, l, h], .mem (.aby l h), 4, true⟩,
   ⟨.andIzx b, [0x21, b], .mem (.izx b), 6, false⟩, ⟨.andIzy b, [0x31, b], .mem (.izy b), 5, true⟩]

/-- ORA (R174). -/
def oraForms (b l h : Byte) : List ReadForm :=
  [⟨.oraImm b, [0x09, b], .imm b, 2, false⟩, ⟨.oraZp b, [0x05, b], .mem (.zp b), 3, false⟩,
   ⟨.oraZpx b, [0x15, b], .mem (.zpx b), 4, false⟩, ⟨.oraAbs l h, [0x0D, l, h], .mem (.abs l h), 4, false⟩,
   ⟨.oraAbx l h, [0x1D, l, h], .mem (.abx l h), 4, true⟩, ⟨.oraAby l h, [0x19, l, h], .mem (.aby l h), 4, true⟩,
   ⟨.oraIzx b, [0x01, b], .mem (.izx b), 6, false⟩, ⟨.oraIzy b, [0x11, b], .mem (.izy b), 5, true⟩]

/-- EOR (R175). -/
def eorForms (b l h : Byte) : List ReadForm :=
  [⟨.eorImm b, [0x49, b], .imm b, 2, false⟩, ⟨.eorZp b, [0x45, b], .mem (.zp b), 3, false⟩,
   ⟨.eorZpx b, [0x55, b], .mem (.zpx b), 4, false⟩, ⟨.eorAbs l h, [0x4D, l, h], .mem (.abs l h), 4, false⟩,
   ⟨.eorAbx l h, [0x5D, l, h], .mem (.abx l h), 4, true⟩, ⟨.eorAby l h, [0x59, l, h], .mem (.aby l h), 4, true⟩,
   ⟨.eorIzx b, [0x41, b], .mem (.izx b), 6, false⟩, ⟨.eorIzy b, [0x51, b], .mem (.izy b), 5, true⟩]

/-- BIT (R176). -/
def bitForms (b l h : Byte) : List ReadForm :=
  [⟨.bitZp b, [0x24, b], .mem (.zp b), 3, false⟩, ⟨.bitAbs l h, [0x2C, l, h], .mem (.abs l h), 4, false⟩]

/-- CMP (R178). -/
def cmpForms (b l h : Byte) : List ReadForm :=
  [⟨.cmpImm b, [0xC9, b], .imm b, 2, false⟩, ⟨.cmpZp b, [0xC5, b], .mem (.zp b), 3, false⟩,
   ⟨.cmpZpx b, [0xD5, b], .mem (.zpx b), 4, false⟩, ⟨.cmpAbs l h, [0xCD, l, h], .mem (.abs l h), 4, false⟩,
   ⟨.cmpAbx l h, [0xDD, l, h], .mem (.abx l h), 4, true⟩, ⟨.cmpAby l h, [0xD9, l, h], .mem (.aby l h), 4, true⟩,
   ⟨.cmpIzx b, [0xC1, b], .mem (.izx b), 6, false⟩, ⟨.cmpIzy b, [0xD1, b], .mem (.izy b), 5, true⟩]

/-- CPX (R179). -/
def cpxForms (b l h : Byte) : List ReadForm :=
  [⟨.cpxImm b, [0xE0, b], .imm b, 2, false⟩, ⟨.cpxZp b, [0xE4, b], .mem (.zp b), 3, false⟩,
   ⟨.cpxAbs l h, [0xEC, l, h], .mem (.abs l h), 4, false⟩]

/-- CPY (R180). -/
def cpyForms (b l h : Byte) : List ReadForm :=
  [⟨.cpyImm b, [0xC0, b], .imm b, 2, false⟩, ⟨.cpyZp b, [0xC4, b], .mem (.zp b), 3, false⟩,
   ⟨.cpyAbs l h, [0xCC, l, h], .mem (.abs l h), 4, false⟩]

/-- INC (R181). -/
def incForms (b l h : Byte) : List WriteForm :=
  [⟨.incZp b, [0xE6, b], .zp b, 5⟩, ⟨.incZpx b, [0xF6, b], .zpx b, 6⟩,
   ⟨.incAbs l h, [0xEE, l, h], .abs l h, 6⟩, ⟨.incAbx l h, [0xFE, l, h], .abx l h, 7⟩]

/-- DEC (R182). -/
def decForms (b l h : Byte) : List WriteForm :=
  [⟨.decZp b, [0xC6, b], .zp b, 5⟩, ⟨.decZpx b, [0xD6, b], .zpx b, 6⟩,
   ⟨.decAbs l h, [0xCE, l, h], .abs l h, 6⟩, ⟨.decAbx l h, [0xDE, l, h], .abx l h, 7⟩]

/-- ASL (R200). -/
def aslForms (b l h : Byte) : List WriteForm :=
  [⟨.aslZp b, [0x06, b], .zp b, 5⟩, ⟨.aslZpx b, [0x16, b], .zpx b, 6⟩,
   ⟨.aslAbs l h, [0x0E, l, h], .abs l h, 6⟩, ⟨.aslAbx l h, [0x1E, l, h], .abx l h, 7⟩]

/-- LSR (R201). -/
def lsrForms (b l h : Byte) : List WriteForm :=
  [⟨.lsrZp b, [0x46, b], .zp b, 5⟩, ⟨.lsrZpx b, [0x56, b], .zpx b, 6⟩,
   ⟨.lsrAbs l h, [0x4E, l, h], .abs l h, 6⟩, ⟨.lsrAbx l h, [0x5E, l, h], .abx l h, 7⟩]

/-- ROL (R202). -/
def rolForms (b l h : Byte) : List WriteForm :=
  [⟨.rolZp b, [0x26, b], .zp b, 5⟩, ⟨.rolZpx b, [0x36, b], .zpx b, 6⟩,
   ⟨.rolAbs l h, [0x2E, l, h], .abs l h, 6⟩, ⟨.rolAbx l h, [0x3E, l, h], .abx l h, 7⟩]

/-- ROR (R203). -/
def rorForms (b l h : Byte) : List WriteForm :=
  [⟨.rorZp b, [0x66, b], .zp b, 5⟩, ⟨.rorZpx b, [0x76, b], .zpx b, 6⟩,
   ⟨.rorAbs l h, [0x6E, l, h], .abs l h, 6⟩, ⟨.rorAbx l h, [0x7E, l, h], .abx l h, 7⟩]

/-- SLO (R251). -/
def sloForms (b l h : Byte) : List WriteForm :=
  [⟨.sloZp b, [0x07, b], .zp b, 5⟩, ⟨.sloZpx b, [0x17, b], .zpx b, 6⟩,
   ⟨.sloAbs l h, [0x0F, l, h], .abs l h, 6⟩, ⟨.sloAbx l h, [0x1F, l, h], .abx l h, 7⟩,
   ⟨.sloAby l h, [0x1B, l, h], .aby l h, 7⟩, ⟨.sloIzx b, [0x03, b], .izx b, 8⟩,
   ⟨.sloIzy b, [0x13, b], .izy b, 8⟩]

/-- RLA (R252). -/
def rlaForms (b l h : Byte) : List WriteForm :=
  [⟨.rlaZp b, [0x27, b], .zp b, 5⟩, ⟨.rlaZpx b, [0x37, b], .zpx b, 6⟩,
   ⟨.rlaAbs l h, [0x2F, l, h], .abs l h, 6⟩, ⟨.rlaAbx l h, [0x3F, l, h], .abx l h, 7⟩,
   ⟨.rlaAby l h, [0x3B, l, h], .aby l h, 7⟩, ⟨.rlaIzx b, [0x23, b], .izx b, 8⟩,
   ⟨.rlaIzy b, [0x33, b], .izy b, 8⟩]

/-- SRE (R253). -/
def sreForms (b l h : Byte) : List WriteForm :=
  [⟨.sreZp b, [0x47, b], .zp b, 5⟩, ⟨.sreZpx b, [0x57, b], .zpx b, 6⟩,
   ⟨.sreAbs l h, [0x4F, l, h], .abs l h, 6⟩, ⟨.sreAbx l h, [0x5F, l, h], .abx l h, 7⟩,
   ⟨.sreAby l h, [0x5B, l, h], .aby l h, 7⟩, ⟨.sreIzx b, [0x43, b], .izx b, 8⟩,
   ⟨.sreIzy b, [0x53, b], .izy b, 8⟩]

/-- RRA (R254). -/
def rraForms (b l h : Byte) : List WriteForm :=
  [⟨.rraZp b, [0x67, b], .zp b, 5⟩, ⟨.rraZpx b, [0x77, b], .zpx b, 6⟩,
   ⟨.rraAbs l h, [0x6F, l, h], .abs l h, 6⟩, ⟨.rraAbx l h, [0x7F, l, h], .abx l h, 7⟩,
   ⟨.rraAby l h, [0x7B, l, h], .aby l h, 7⟩, ⟨.rraIzx b, [0x63, b], .izx b, 8⟩,
   ⟨.rraIzy b, [0x73, b], .izy b, 8⟩]

/-- ISC (R258). -/
def iscForms (b l h : Byte) : List WriteForm :=
  [⟨.iscZp b, [0xE7, b], .zp b, 5⟩, ⟨.iscZpx b, [0xF7, b], .zpx b, 6⟩,
   ⟨.iscAbs l h, [0xEF, l, h], .abs l h, 6⟩, ⟨.iscAbx l h, [0xFF, l, h], .abx l h, 7⟩,
   ⟨.iscAby l h, [0xFB, l, h], .aby l h, 7⟩, ⟨.iscIzx b, [0xE3, b], .izx b, 8⟩,
   ⟨.iscIzy b, [0xF3, b], .izy b, 8⟩]

/-- DCP (R257). -/
def dcpForms (b l h : Byte) : List WriteForm :=
  [⟨.dcpZp b, [0xC7, b], .zp b, 5⟩, ⟨.dcpZpx b, [0xD7, b], .zpx b, 6⟩,
   ⟨.dcpAbs l h, [0xCF, l, h], .abs l h, 6⟩, ⟨.dcpAbx l h, [0xDF, l, h], .abx l h, 7⟩,
   ⟨.dcpAby l h, [0xDB, l, h], .aby l h, 7⟩, ⟨.dcpIzx b, [0xC3, b], .izx b, 8⟩,
   ⟨.dcpIzy b, [0xD3, b], .izy b, 8⟩]

/-- SAX (R255). -/
def saxForms (b l h : Byte) : List WriteForm :=
  [⟨.saxZp b, [0x87, b], .zp b, 3⟩, ⟨.saxZpy b, [0x97, b], .zpy b, 4⟩,
   ⟨.saxAbs l h, [0x8F, l, h], .abs l h, 4⟩, ⟨.saxIzx b, [0x83, b], .izx b, 6⟩]

/-- LAX (R256). -/
def laxForms (b l h : Byte) : List ReadForm :=
  [⟨.laxZp b, [0xA7, b], .mem (.zp b), 3, false⟩, ⟨.laxZpy b, [0xB7, b], .mem (.zpy b), 4, false⟩,
   ⟨.laxAbs l h, [0xAF, l, h], .mem (.abs l h), 4, false⟩, ⟨.laxAby l h, [0xBF, l, h], .mem (.aby l h), 4, true⟩,
   ⟨.laxIzx b, [0xA3, b], .mem (.izx b), 6, false⟩, ⟨.laxIzy b, [0xB3, b], .mem (.izy b), 5, true⟩]

/-- LAS (R266). -/
def lasForms (l h : Byte) : List ReadForm :=
  [⟨.lasAby l h, [0xBB, l, h], .mem (.aby l h), 4, true⟩]

/-- ANC (R259). -/
def ancForms (b : Byte) : List ReadForm :=
  [⟨.anc0B b, [0x0B, b], .imm b, 2, false⟩, ⟨.anc2B b, [0x2B, b], .imm b, 2, false⟩]

/-- ALR (R260). -/
def alrForms (b : Byte) : List ReadForm :=
  [⟨.alrImm b, [0x4B, b], .imm b, 2, false⟩]

/-- ARR (R261). -/
def arrForms (b : Byte) : List ReadForm :=
  [⟨.arrImm b, [0x6B, b], .imm b, 2, false⟩]

/-- SBX (R262). -/
def sbxForms (b : Byte) : List ReadForm :=
  [⟨.sbxImm b, [0xCB, b], .imm b, 2, false⟩]

/-- ANE (R264). -/
def aneForms (b : Byte) : List ReadForm :=
  [⟨.aneImm b, [0x8B, b], .imm b, 2, false⟩]

/-- LXA (R265). -/
def lxaForms (b : Byte) : List ReadForm :=
  [⟨.lxaImm b, [0xAB, b], .imm b, 2, false⟩]

/-- SHA (R268). -/
def shaForms (b l h : Byte) : List WriteForm :=
  [⟨.shaAby l h, [0x9F, l, h], .aby l h, 5⟩, ⟨.shaIzy b, [0x93, b], .izy b, 6⟩]

/-- SHX (R269). -/
def shxForms (l h : Byte) : List WriteForm :=
  [⟨.shxAby l h, [0x9E, l, h], .aby l h, 5⟩]

/-- SHY (R270). -/
def shyForms (l h : Byte) : List WriteForm :=
  [⟨.shyAbx l h, [0x9C, l, h], .abx l h, 5⟩]

/-- TAS (R271). -/
def tasForms (l h : Byte) : List WriteForm :=
  [⟨.tasAby l h, [0x9B, l, h], .aby l h, 5⟩]

/-- NOP (R272). -/
def nopForms (b l h : Byte) : List ReadForm :=
  [⟨.nopImm80 b, [0x80, b], .imm b, 2, false⟩, ⟨.nopImm82 b, [0x82, b], .imm b, 2, false⟩,
   ⟨.nopImm89 b, [0x89, b], .imm b, 2, false⟩, ⟨.nopImmC2 b, [0xC2, b], .imm b, 2, false⟩,
   ⟨.nopImmE2 b, [0xE2, b], .imm b, 2, false⟩, ⟨.nopZp04 b, [0x04, b], .mem (.zp b), 3, false⟩,
   ⟨.nopZp44 b, [0x44, b], .mem (.zp b), 3, false⟩, ⟨.nopZp64 b, [0x64, b], .mem (.zp b), 3, false⟩,
   ⟨.nopZpx14 b, [0x14, b], .mem (.zpx b), 4, false⟩, ⟨.nopZpx34 b, [0x34, b], .mem (.zpx b), 4, false⟩,
   ⟨.nopZpx54 b, [0x54, b], .mem (.zpx b), 4, false⟩, ⟨.nopZpx74 b, [0x74, b], .mem (.zpx b), 4, false⟩,
   ⟨.nopZpxD4 b, [0xD4, b], .mem (.zpx b), 4, false⟩, ⟨.nopZpxF4 b, [0xF4, b], .mem (.zpx b), 4, false⟩,
   ⟨.nopAbs0C l h, [0x0C, l, h], .mem (.abs l h), 4, false⟩, ⟨.nopAbx1C l h, [0x1C, l, h], .mem (.abx l h), 4, true⟩,
   ⟨.nopAbx3C l h, [0x3C, l, h], .mem (.abx l h), 4, true⟩, ⟨.nopAbx5C l h, [0x5C, l, h], .mem (.abx l h), 4, true⟩,
   ⟨.nopAbx7C l h, [0x7C, l, h], .mem (.abx l h), 4, true⟩, ⟨.nopAbxDC l h, [0xDC, l, h], .mem (.abx l h), 4, true⟩,
   ⟨.nopAbxFC l h, [0xFC, l, h], .mem (.abx l h), 4, true⟩]

/-- The branches (R215 to R222): each with its opcode and the condition under which it is taken. -/
def branchForms (off : Byte) (p : Flags) : List (Instr × Byte × Bool) :=
  [(.bpl off, 0x10, !p.n), (.bmi off, 0x30, p.n), (.bvc off, 0x50, !p.v), (.bvs off, 0x70, p.v),
   (.bcc off, 0x90, !p.c), (.bcs off, 0xB0, p.c), (.bne off, 0xD0, !p.z), (.beq off, 0xF0, p.z)]

/-- The implied undocumented NOPs (R272). -/
def impliedNopForms : List (Instr × Byte) :=
  [(.nopImp1A, 0x1A), (.nopImp3A, 0x3A), (.nopImp5A, 0x5A), (.nopImp7A, 0x7A), (.nopImpDA, 0xDA), (.nopImpFA, 0xFA)]

/-- The JAM opcodes (R273). -/
def jamForms : List (Instr × Byte) :=
  [(.jam02, 0x02), (.jam12, 0x12), (.jam22, 0x22), (.jam32, 0x32), (.jam42, 0x42), (.jam52, 0x52),
   (.jam62, 0x62), (.jam72, 0x72), (.jam92, 0x92), (.jamB2, 0xB2), (.jamD2, 0xD2), (.jamF2, 0xF2)]

/-- Every form of the read class (40_addressing R112, R118). -/
def readForms (b l h : Byte) : List ReadForm :=
  ldaForms b l h ++ ldxForms b l h ++ ldyForms b l h ++ adcForms b l h ++
    sbcForms b l h ++ usbcForms b ++ andForms b l h ++ oraForms b l h ++
    eorForms b l h ++ bitForms b l h ++ cmpForms b l h ++ cpxForms b l h ++
    cpyForms b l h ++ laxForms b l h ++ lasForms l h ++ ancForms b ++
    alrForms b ++ arrForms b ++ sbxForms b ++ aneForms b ++
    lxaForms b ++ nopForms b l h

/-- Every form of the write class but those of R267 (40_addressing R112). -/
def storeForms (b l h : Byte) : List WriteForm :=
  staForms b l h ++ stxForms b l h ++ styForms b l h ++ saxForms b l h

/-- The write class of R267. -/
def highForms (b l h : Byte) : List WriteForm :=
  shaForms b l h ++ shxForms l h ++ shyForms l h ++ tasForms l h

/-- Every memory form of the read-modify-write class (40_addressing R112). -/
def modifyForms (b l h : Byte) : List WriteForm :=
  incForms b l h ++ decForms b l h ++ aslForms b l h ++ lsrForms b l h ++
    rolForms b l h ++ rorForms b l h ++ sloForms b l h ++ rlaForms b l h ++
    sreForms b l h ++ rraForms b l h ++ iscForms b l h ++ dcpForms b l h

/-- The instructions with no memory operand and no stack access: implied, accumulator, branches, JMP and JAM. -/
def registerInstrs (b l h : Byte) : List Instr :=
  [.tax, .tay, .txa, .tya, .tsx, .txs, .inx, .iny, .dex, .dey, .aslAcc, .lsrAcc,
   .rolAcc, .rorAcc, .clc, .sec, .cli, .sei, .cld, .sed, .clv, .nop,
   .bpl b, .bmi b, .bvc b, .bvs b, .bcc b, .bcs b, .bne b, .beq b, .jmpAbs l h, .jmpInd l h,
   .nopImp1A, .nopImp3A, .nopImp5A, .nopImp7A, .nopImpDA, .nopImpFA,
   .jam02, .jam12, .jam22, .jam32, .jam42, .jam52, .jam62, .jam72, .jam92, .jamB2, .jamD2, .jamF2]

/-- The 105 undocumented opcodes: the cells marked `*` in the opcode map (30_encoding R84). -/
def undocumentedOpcodes : List Byte :=
  [0x02, 0x03, 0x04, 0x07, 0x0B, 0x0C, 0x0F, 0x12, 0x13, 0x14, 0x17, 0x1A, 0x1B, 0x1C, 0x1F, 0x22, 0x23, 0x27, 0x2B, 0x2F,
   0x32, 0x33, 0x34, 0x37, 0x3A, 0x3B, 0x3C, 0x3F, 0x42, 0x43, 0x44, 0x47, 0x4B, 0x4F, 0x52, 0x53, 0x54, 0x57, 0x5A, 0x5B,
   0x5C, 0x5F, 0x62, 0x63, 0x64, 0x67, 0x6B, 0x6F, 0x72, 0x73, 0x74, 0x77, 0x7A, 0x7B, 0x7C, 0x7F, 0x80, 0x82, 0x83, 0x87,
   0x89, 0x8B, 0x8F, 0x92, 0x93, 0x97, 0x9B, 0x9C, 0x9E, 0x9F, 0xA3, 0xA7, 0xAB, 0xAF, 0xB2, 0xB3, 0xB7, 0xBB, 0xBF, 0xC2,
   0xC3, 0xC7, 0xCB, 0xCF, 0xD2, 0xD3, 0xD4, 0xD7, 0xDA, 0xDB, 0xDC, 0xDF, 0xE2, 0xE3, 0xE7, 0xEB, 0xEF, 0xF2, 0xF3, 0xF4,
   0xF7, 0xFA, 0xFB, 0xFC, 0xFF]

/-- The unstable opcodes (30_encoding R85). -/
def unstableOpcodes : List Byte :=
  [0x8B, 0x93, 0x9B, 0x9C, 0x9E, 0x9F, 0xAB]

/-- The opcodes that write A (10_state R21). -/
def opcodesWritingA : List Byte :=
  [0x01, 0x05, 0x09, 0x0D, 0x11, 0x15, 0x19, 0x1D, 0x21, 0x25, 0x29, 0x2D, 0x31, 0x35, 0x39, 0x3D, 0x41, 0x45, 0x49, 0x4D,
   0x51, 0x55, 0x59, 0x5D, 0x61, 0x65, 0x68, 0x69, 0x6D, 0x71, 0x75, 0x79, 0x7D, 0x8A, 0x98, 0xA1, 0xA5, 0xA9, 0xAD, 0xB1,
   0xB5, 0xB9, 0xBD, 0xE1, 0xE5, 0xE9, 0xED, 0xF1, 0xF5, 0xF9, 0xFD, 0x0A, 0x2A, 0x4A, 0x6A, 0x03, 0x07, 0x0B, 0x0F, 0x13,
   0x17, 0x1B, 0x1F, 0x23, 0x27, 0x2B, 0x2F, 0x33, 0x37, 0x3B, 0x3F, 0x43, 0x47, 0x4B, 0x4F, 0x53, 0x57, 0x5B, 0x5F, 0x63,
   0x67, 0x6B, 0x6F, 0x73, 0x77, 0x7B, 0x7F, 0x8B, 0xA3, 0xA7, 0xAB, 0xAF, 0xB3, 0xB7, 0xBB, 0xBF, 0xE3, 0xE7, 0xEB, 0xEF,
   0xF3, 0xF7, 0xFB, 0xFF]

/-- The opcodes that write X (10_state R22). -/
def opcodesWritingX : List Byte :=
  [0xA2, 0xA3, 0xA6, 0xA7, 0xAA, 0xAB, 0xAE, 0xAF, 0xB3, 0xB6, 0xB7, 0xBA, 0xBB, 0xBE, 0xBF, 0xCA, 0xCB, 0xE8]

/-- The opcodes that write Y (10_state R23). -/
def opcodesWritingY : List Byte :=
  [0x88, 0xA0, 0xA4, 0xA8, 0xAC, 0xB4, 0xBC, 0xC8]

/-- The opcodes that write S (10_state R24). -/
def opcodesWritingS : List Byte :=
  [0x00, 0x08, 0x20, 0x28, 0x40, 0x48, 0x60, 0x68, 0x9A, 0x9B, 0xBB]

/-- The opcodes that write C (10_state R28). -/
def opcodesWritingC : List Byte :=
  [0x03, 0x06, 0x07, 0x0A, 0x0B, 0x0E, 0x0F, 0x13, 0x16, 0x17, 0x18, 0x1B, 0x1E, 0x1F, 0x23, 0x26, 0x27, 0x28, 0x2A, 0x2B,
   0x2E, 0x2F, 0x33, 0x36, 0x37, 0x38, 0x3B, 0x3E, 0x3F, 0x40, 0x43, 0x46, 0x47, 0x4A, 0x4B, 0x4E, 0x4F, 0x53, 0x56, 0x57,
   0x5B, 0x5E, 0x5F, 0x61, 0x63, 0x65, 0x66, 0x67, 0x69, 0x6A, 0x6B, 0x6D, 0x6E, 0x6F, 0x71, 0x73, 0x75, 0x76, 0x77, 0x79,
   0x7B, 0x7D, 0x7E, 0x7F, 0xC0, 0xC1, 0xC3, 0xC4, 0xC5, 0xC7, 0xC9, 0xCB, 0xCC, 0xCD, 0xCF, 0xD1, 0xD3, 0xD5, 0xD7, 0xD9,
   0xDB, 0xDD, 0xDF, 0xE0, 0xE1, 0xE3, 0xE4, 0xE5, 0xE7, 0xE9, 0xEB, 0xEC, 0xED, 0xEF, 0xF1, 0xF3, 0xF5, 0xF7, 0xF9, 0xFB,
   0xFD, 0xFF]

/-- The opcodes that write V (10_state R32). -/
def opcodesWritingV : List Byte :=
  [0x24, 0x28, 0x2C, 0x40, 0x61, 0x63, 0x65, 0x67, 0x69, 0x6B, 0x6D, 0x6F, 0x71, 0x73, 0x75, 0x77, 0x79, 0x7B, 0x7D, 0x7F,
   0xB8, 0xE1, 0xE3, 0xE5, 0xE7, 0xE9, 0xEB, 0xED, 0xEF, 0xF1, 0xF3, 0xF5, 0xF7, 0xF9, 0xFB, 0xFD, 0xFF]

/-- The opcodes that write I (10_state R30). -/
def opcodesWritingI : List Byte :=
  [0x00, 0x28, 0x40, 0x58, 0x78]

/-- The opcodes that write D (10_state R31). -/
def opcodesWritingD : List Byte :=
  [0x28, 0x40, 0xD8, 0xF8]

/-- The opcodes that write N and Z: those that call `setNZ`, and BIT, PLP and RTI (10_state R29, R33). -/
def opcodesWritingNZ : List Byte :=
  [0x01, 0x03, 0x05, 0x06, 0x07, 0x09, 0x0A, 0x0B, 0x0D, 0x0E, 0x0F, 0x11, 0x13, 0x15, 0x16, 0x17, 0x19, 0x1B, 0x1D, 0x1E,
   0x1F, 0x21, 0x23, 0x25, 0x26, 0x27, 0x29, 0x2A, 0x2B, 0x2D, 0x2E, 0x2F, 0x31, 0x33, 0x35, 0x36, 0x37, 0x39, 0x3B, 0x3D,
   0x3E, 0x3F, 0x41, 0x43, 0x45, 0x46, 0x47, 0x49, 0x4A, 0x4B, 0x4D, 0x4E, 0x4F, 0x51, 0x53, 0x55, 0x56, 0x57, 0x59, 0x5B,
   0x5D, 0x5E, 0x5F, 0x61, 0x63, 0x65, 0x66, 0x67, 0x68, 0x69, 0x6A, 0x6B, 0x6D, 0x6E, 0x6F, 0x71, 0x73, 0x75, 0x76, 0x77,
   0x79, 0x7B, 0x7D, 0x7E, 0x7F, 0x88, 0x8A, 0x8B, 0x98, 0xA0, 0xA1, 0xA2, 0xA3, 0xA4, 0xA5, 0xA6, 0xA7, 0xA8, 0xA9, 0xAA,
   0xAB, 0xAC, 0xAD, 0xAE, 0xAF, 0xB1, 0xB3, 0xB4, 0xB5, 0xB6, 0xB7, 0xB9, 0xBA, 0xBB, 0xBC, 0xBD, 0xBE, 0xBF, 0xC0, 0xC1,
   0xC3, 0xC4, 0xC5, 0xC6, 0xC7, 0xC8, 0xC9, 0xCA, 0xCB, 0xCC, 0xCD, 0xCE, 0xCF, 0xD1, 0xD3, 0xD5, 0xD6, 0xD7, 0xD9, 0xDB,
   0xDD, 0xDE, 0xDF, 0xE0, 0xE1, 0xE3, 0xE4, 0xE5, 0xE6, 0xE7, 0xE8, 0xE9, 0xEB, 0xEC, 0xED, 0xEE, 0xEF, 0xF1, 0xF3, 0xF5,
   0xF6, 0xF7, 0xF9, 0xFB, 0xFD, 0xFE, 0xFF, 0x24, 0x28, 0x2C, 0x40]

/-- The opcodes that write PC (10_state R26, R46). -/
def opcodesWritingPC : List Byte :=
  [0x00, 0x10, 0x20, 0x30, 0x40, 0x4C, 0x50, 0x60, 0x6C, 0x70, 0x90, 0xB0, 0xD0, 0xF0]

/-- The length of an instruction, from the row and the column of its opcode in the opcode map (30_encoding R81, R84, R89). -/
def opcodeLength (op : Byte) : Nat :=
  let row := op.toNat / 16
  let col := op.toNat % 16
  if col = 0 then (if row = 2 then 3 else if row % 2 = 1 ∨ 8 ≤ row then 2 else 1)
  else if col = 2 then (if row % 2 = 0 ∧ 8 ≤ row then 2 else 1)
  else if col = 8 ∨ col = 10 then 1
  else if col = 9 ∨ col = 11 then (if row % 2 = 0 then 2 else 3)
  else if 12 ≤ col then 3
  else 2

/-- The address a taken branch goes to (45 R214). -/
def branchTarget (pc : Addr) (off : Byte) : Addr :=
  BitVec.ofInt 16 (pc.toNat + off.toInt)

/-- Does a taken branch leave the page of the following instruction (45 R214)? -/
def branchCrosses (pc : Addr) (off : Byte) : Bool :=
  decide ((branchTarget pc off).toNat / 256 ≠ pc.toNat / 256)

/-- The Bus after a branch (45 R214). -/
def branchBus (taken : Bool) (off : Byte) (s : State) : Bus :=
  if taken then
    if branchCrosses s.cpu.pc off then
      ((idled s).read (joined (highByte s.cpu.pc) (lowByte (branchTarget s.cpu.pc off)))).2
    else idled s
  else s.bus

/-- The state with another value of the D flag. -/
def withD (d : Bool) (s : State) : State :=
  { s with cpu := { s.cpu with p := { s.cpu.p with d := d } } }

/-- The state of a step that has not made its first access: the log is empty and no DMA is requested. -/
def opened (s : State) : State :=
  { s with bus := { s.bus with log := [], dmaRequest := none } }

/-- What the poll takes when nothing suppresses it: a pending NMI, else an IRQ when a source's line is up and the mask is 0 (60_exceptions R305, R307). -/
def taken (mask : Bool) (s : State) : Option Interrupt :=
  if s.cpu.nmiPending then some .nmi
  else if (s.bus.apu.frameIrq || s.bus.apu.dmcIrq) && !mask then some .irq
  else none

/-- The PPU register at an address of $2000 to $3FFF is the one of this index (20_memory R60). -/
def ppuIndex (a : Addr) (k : Nat) : Prop :=
  0x2000 ≤ a.toNat ∧ a.toNat < 0x4000 ∧ a.toNat % 8 = k

/-- The addresses that no target drives on a read (20_memory R52, R60, R61, R67). -/
def undriven (a : Addr) : Prop :=
  ppuIndex a 0 ∨ ppuIndex a 1 ∨ ppuIndex a 3 ∨ ppuIndex a 5 ∨ ppuIndex a 6 ∨
    (0x4000 ≤ a.toNat ∧ a.toNat ≤ 0x4014) ∨ (0x4018 ≤ a.toNat ∧ a.toNat ≤ 0x7FFF)

/-- The state with each byte of the stack slots above S as in an earlier state, and S as it was (42_stack R161): what a return pulls from. -/
def sameFrame (n : Nat) (t u : State) : Prop :=
  u.cpu.s = t.cpu.s ∧ ∀ k, 1 ≤ k → k ≤ n → u.bus.byteAt (stackCell (u8 (t.cpu.s.toNat + k))) = t.bus.byteAt (stackCell (u8 (t.cpu.s.toNat + k)))

end Sys2Proof.Machine

open Sys2Proof Sys2Proof.Machine

/-- Words of the opcode map (30_encoding R81, R84), written out bit by bit, decode to their instructions. -/
def Obligations.SampleWordsDecodeAsTheSpecWritesThem : Prop :=
  decode [0b10101001, 0x80] = .ok (.ldaImm 0x80, []) ∧
  decode [0b10001101, 0x00, 0x03] = .ok (.staAbs 0x00 0x03, []) ∧
  decode [0b01101000] = .ok (.pla, []) ∧
  decode [0b01110001, 0x12] = .ok (.adcIzy 0x12, []) ∧
  decode [0b01001010] = .ok (.lsrAcc, []) ∧
  decode [0b00100000, 0x34, 0x12] = .ok (.jsrAbs 0x34 0x12, []) ∧
  decode [0b01111000] = .ok (.sei, []) ∧
  decode [0b10011011, 0x00, 0x05] = .ok (.tasAby 0x00 0x05, [])

/-- Decoding and encoding agree in both directions, for every instruction with every value of its operands (30_encoding R80, R81, R84, R90). -/
def Obligations.DecodeInvertsEncode : Prop :=
  ∀ (bytes : List Byte) (i : Instr) (rest : List Byte), decode bytes = .ok (i, rest) ↔ bytes = encode i ++ rest

/-- Every byte is an opcode, and its place in the map gives the length of the instruction (30_encoding R80, R84, R88, R89). -/
def Obligations.OpcodeAloneGivesTheLength : Prop :=
  ∀ (op b1 b2 : Byte), ∃ i : Instr,
    decode [op, b1, b2] = .ok (i, [op, b1, b2].drop (opcodeLength op)) ∧ encode i = [op, b1, b2].take (opcodeLength op)

/-- The table of ILLEGAL_POLICY (30_encoding R86) over the byte fetched at PC, and the outcome `Refused(opcode, PC)` (R87). Every other opcode runs. -/
def Obligations.PolicyDecidesWhichOpcodesRun : Prop :=
  ∀ s : State, s.bus.ppu.inBounds s.params.region → s.cpu.resetPending = false → s.cpu.jammed = false → s.poll = none →
    let op := (s.bus.read s.cpu.pc).1
    let left := (s.params.policy = .documentedOnly ∧ op ∈ undocumentedOpcodes) ∨ (s.params.policy = .stable ∧ op ∈ unstableOpcodes)
    (left → step s = .refused (.illegalOpcode op s.cpu.pc)) ∧ (¬ left → ∃ t, step s = .next t)

/-- LDA, LDX and LDY in every mode: result, flags, bus accesses, cycles and frame (41 R140 to R142). -/
def Obligations.LoadsSetTheirRegister : Prop :=
  ∀ (b l h : Byte) (s : State),
    (∀ f ∈ ldaForms b l h, f.costs s ∧ exec f.instr s = .next (afterLoad f.operand s fun v c => { c with a := v, p := nz v c.p })) ∧
    (∀ f ∈ ldxForms b l h, f.costs s ∧ exec f.instr s = .next (afterLoad f.operand s fun v c => { c with x := v, p := nz v c.p })) ∧
    (∀ f ∈ ldyForms b l h, f.costs s ∧ exec f.instr s = .next (afterLoad f.operand s fun v c => { c with y := v, p := nz v c.p }))

/-- STA, STX and STY in every mode (41 R143 to R145). -/
def Obligations.StoresWriteTheirRegister : Prop :=
  ∀ (b l h : Byte) (s : State),
    (∀ f ∈ staForms b l h, costs f.instr f.code f.cycles s (afterStore f.mode s.cpu.a s).bus ∧ exec f.instr s = .next (afterStore f.mode s.cpu.a s)) ∧
    (∀ f ∈ stxForms b l h, costs f.instr f.code f.cycles s (afterStore f.mode s.cpu.x s).bus ∧ exec f.instr s = .next (afterStore f.mode s.cpu.x s)) ∧
    (∀ f ∈ styForms b l h, costs f.instr f.code f.cycles s (afterStore f.mode s.cpu.y s).bus ∧ exec f.instr s = .next (afterStore f.mode s.cpu.y s))

/-- The six register transfers (41 R146 to R151). -/
def Obligations.TransfersCopyARegister : Prop :=
  ∀ s : State,
    (costs .tax [0xAA] 2 s (idled s) ∧ exec .tax s = .next (afterIdle s fun c => { c with x := c.a, p := nz c.a c.p })) ∧
    (costs .tay [0xA8] 2 s (idled s) ∧ exec .tay s = .next (afterIdle s fun c => { c with y := c.a, p := nz c.a c.p })) ∧
    (costs .txa [0x8A] 2 s (idled s) ∧ exec .txa s = .next (afterIdle s fun c => { c with a := c.x, p := nz c.x c.p })) ∧
    (costs .tya [0x98] 2 s (idled s) ∧ exec .tya s = .next (afterIdle s fun c => { c with a := c.y, p := nz c.y c.p })) ∧
    (costs .tsx [0xBA] 2 s (idled s) ∧ exec .tsx s = .next (afterIdle s fun c => { c with x := c.s, p := nz c.s c.p })) ∧
    (costs .txs [0x9A] 2 s (idled s) ∧ exec .txs s = .next (afterIdle s fun c => { c with s := c.x }))

/-- PHA, PHP, PLA and PLP (42_stack R160 to R165). -/
def Obligations.StackInstructionsPushAndPull : Prop :=
  ∀ s : State,
    let t := pushed s.cpu.a { s with bus := idled s }
    let u := pushed (statusImage true s.cpu.p) { s with bus := idled s }
    let r := pulled { s with bus := ((idled s).read (stackCell s.cpu.s)).2 }
    costs .pha [0x48] 3 s t.bus ∧ exec .pha s = .next t ∧
    costs .php [0x08] 3 s u.bus ∧ exec .php s = .next u ∧
    costs .pla [0x68] 4 s r.2.bus ∧
    exec .pla s = .next { r.2 with cpu := { r.2.cpu with a := r.1, p := nz r.1 s.cpu.p } } ∧
    costs .plp [0x28] 4 s r.2.bus ∧
    exec .plp s = .next { r.2 with cpu := { r.2.cpu with p := statusLoaded r.1, iPoll := s.cpu.p.i } }

/-- The binary adder and ADC in every mode (43 R170, R171). -/
def Obligations.AdcAddsWithCarry : Prop :=
  (∀ (a m : Byte) (c : Bool) (p : Flags),
    addByte a m c = sumByte a m c ∧ p.addC a m c = sumFlags a m c p ∧
    (sumFlags a m c p).v = decide ((a ^^^ sumByte a m c) &&& (m ^^^ sumByte a m c) &&& 0x80 ≠ 0)) ∧
  ∀ (b l h : Byte) (s : State),
    (∀ f ∈ adcForms b l h, f.costs s ∧ exec f.instr s = .next (afterLoad f.operand s fun v c => { c with a := sumByte c.a v c.p.c, p := sumFlags c.a v c.p.c c.p }))

/-- SBC in every mode, and USBC (43 R172, 47 R263). -/
def Obligations.SbcSubtractsWithBorrow : Prop :=
  ∀ (b l h : Byte) (s : State),
    (∀ f ∈ sbcForms b l h, f.costs s ∧ exec f.instr s = .next (afterLoad f.operand s fun v c => { c with a := diffByte c.a v c.p.c, p := diffFlags c.a v c.p.c c.p })) ∧
    (∀ f ∈ usbcForms b, f.costs s ∧ exec f.instr s = .next (afterLoad f.operand s fun v c => { c with a := diffByte c.a v c.p.c, p := diffFlags c.a v c.p.c c.p }))

/-- AND, ORA and EOR in every mode (43 R173 to R175). -/
def Obligations.LogicCombinesIntoA : Prop :=
  ∀ (b l h : Byte) (s : State),
    (∀ f ∈ andForms b l h, f.costs s ∧ exec f.instr s = .next (afterLoad f.operand s fun v c => { c with a := c.a &&& v, p := nz (c.a &&& v) c.p })) ∧
    (∀ f ∈ oraForms b l h, f.costs s ∧ exec f.instr s = .next (afterLoad f.operand s fun v c => { c with a := c.a ||| v, p := nz (c.a ||| v) c.p })) ∧
    (∀ f ∈ eorForms b l h, f.costs s ∧ exec f.instr s = .next (afterLoad f.operand s fun v c => { c with a := c.a ^^^ v, p := nz (c.a ^^^ v) c.p }))

/-- BIT, CMP, CPX and CPY in every mode (43 R176 to R180). -/
def Obligations.TestsSetFlagsOnly : Prop :=
  ∀ (b l h : Byte) (s : State),
    (∀ f ∈ bitForms b l h, f.costs s ∧ exec f.instr s = .next (afterLoad f.operand s fun v c => 
      { c with p := { c.p with z := decide ((c.a &&& v).toNat = 0), n := numBit v 7, v := numBit v 6 } })) ∧
    (∀ f ∈ cmpForms b l h, f.costs s ∧ exec f.instr s = .next (afterLoad f.operand s fun v c => { c with p := compareFlags c.a v c.p })) ∧
    (∀ f ∈ cpxForms b l h, f.costs s ∧ exec f.instr s = .next (afterLoad f.operand s fun v c => { c with p := compareFlags c.x v c.p })) ∧
    (∀ f ∈ cpyForms b l h, f.costs s ∧ exec f.instr s = .next (afterLoad f.operand s fun v c => { c with p := compareFlags c.y v c.p }))

/-- INC, DEC, INX, INY, DEX and DEY (43 R181 to R186). -/
def Obligations.IncrementsAndDecrementsWrap : Prop :=
  ∀ (b l h : Byte) (s : State),
    (∀ f ∈ incForms b l h,
      let t := afterModify f.mode (fun v => u8 (v.toNat + 1)) s fun v c => { c with p := nz (u8 (v.toNat + 1)) c.p }
      costs f.instr f.code f.cycles s t.bus ∧ exec f.instr s = .next t) ∧
    (∀ f ∈ decForms b l h,
      let t := afterModify f.mode (fun v => u8 (v.toNat + 255)) s fun v c => { c with p := nz (u8 (v.toNat + 255)) c.p }
      costs f.instr f.code f.cycles s t.bus ∧ exec f.instr s = .next t) ∧
    (costs .inx [0xE8] 2 s (idled s) ∧ exec .inx s = .next (afterIdle s fun c => { c with x := u8 (c.x.toNat + 1), p := nz (u8 (c.x.toNat + 1)) c.p })) ∧
    (costs .iny [0xC8] 2 s (idled s) ∧ exec .iny s = .next (afterIdle s fun c => { c with y := u8 (c.y.toNat + 1), p := nz (u8 (c.y.toNat + 1)) c.p })) ∧
    (costs .dex [0xCA] 2 s (idled s) ∧ exec .dex s = .next (afterIdle s fun c => { c with x := u8 (c.x.toNat + 255), p := nz (u8 (c.x.toNat + 255)) c.p })) ∧
    (costs .dey [0x88] 2 s (idled s) ∧ exec .dey s = .next (afterIdle s fun c => { c with y := u8 (c.y.toNat + 255), p := nz (u8 (c.y.toNat + 255)) c.p }))

/-- ASL, LSR, ROL and ROR, memory and accumulator forms (44 R200 to R203). -/
def Obligations.ShiftsMoveOneBit : Prop :=
  ∀ (b l h : Byte) (s : State),
    (∀ f ∈ aslForms b l h,
      let t := afterModify f.mode (shiftedLeft false) s fun v c => { c with p := { nz (shiftedLeft false v) c.p with c := topBit v } }
      costs f.instr f.code f.cycles s t.bus ∧ exec f.instr s = .next t) ∧
    (∀ f ∈ lsrForms b l h,
      let t := afterModify f.mode (shiftedRight false) s fun v c => { c with p := { nz (shiftedRight false v) c.p with c := lowBit v } }
      costs f.instr f.code f.cycles s t.bus ∧ exec f.instr s = .next t) ∧
    (∀ f ∈ rolForms b l h,
      let t := afterModify f.mode (shiftedLeft s.cpu.p.c) s fun v c => { c with p := { nz (shiftedLeft s.cpu.p.c v) c.p with c := topBit v } }
      costs f.instr f.code f.cycles s t.bus ∧ exec f.instr s = .next t) ∧
    (∀ f ∈ rorForms b l h,
      let t := afterModify f.mode (shiftedRight s.cpu.p.c) s fun v c => { c with p := { nz (shiftedRight s.cpu.p.c v) c.p with c := lowBit v } }
      costs f.instr f.code f.cycles s t.bus ∧ exec f.instr s = .next t) ∧
    (costs .aslAcc [0x0A] 2 s (idled s) ∧ exec .aslAcc s = .next (afterIdle s fun c => { c with a := shiftedLeft false c.a, p := { nz (shiftedLeft false c.a) c.p with c := topBit c.a } })) ∧
    (costs .lsrAcc [0x4A] 2 s (idled s) ∧ exec .lsrAcc s = .next (afterIdle s fun c => { c with a := shiftedRight false c.a, p := { nz (shiftedRight false c.a) c.p with c := lowBit c.a } })) ∧
    (costs .rolAcc [0x2A] 2 s (idled s) ∧ exec .rolAcc s = .next (afterIdle s fun c => { c with a := shiftedLeft s.cpu.p.c c.a, p := { nz (shiftedLeft s.cpu.p.c c.a) c.p with c := topBit c.a } })) ∧
    (costs .rorAcc [0x6A] 2 s (idled s) ∧ exec .rorAcc s = .next (afterIdle s fun c => { c with a := shiftedRight s.cpu.p.c c.a, p := { nz (shiftedRight s.cpu.p.c c.a) c.p with c := lowBit c.a } }))

/-- JMP absolute and indirect (45 R210, R211). -/
def Obligations.JumpsSetThePc : Prop :=
  ∀ (l h : Byte) (s : State),
    let low := s.bus.read (joined h l)
    let high := low.2.read (joined h (u8 (l.toNat + 1)))
    costs (.jmpAbs l h) [0x4C, l, h] 3 s s.bus ∧
    exec (.jmpAbs l h) s = .next { s with cpu := { s.cpu with pc := joined h l } } ∧
    costs (.jmpInd l h) [0x6C, l, h] 5 s high.2 ∧
    exec (.jmpInd l h) s = .next { s with cpu := { s.cpu with pc := joined high.1 low.1 }, bus := high.2 }

/-- JSR and RTS (45 R212, R213). Two of JSR's three bytes are fetched before its meaning runs. -/
def Obligations.SubroutinesUseTheStack : Prop :=
  (∀ (l h : Byte) (s : State),
    let saved := pushed (lowByte s.cpu.pc) (pushed (highByte s.cpu.pc) { s with bus := (s.bus.read (stackCell s.cpu.s)).2 })
    let high := saved.bus.read s.cpu.pc
    encode (.jsrAbs l h) = [0x20, l, h] ∧ fetchedFirst (.jsrAbs l h) = [0x20, l] ∧ high.2.log.length + 2 = s.bus.log.length + 6 ∧
    exec (.jsrAbs l h) s = .next { saved with cpu := { saved.cpu with pc := joined high.1 l }, bus := high.2 }) ∧
  ∀ s : State,
    let low := pulled { s with bus := ((idled s).read (stackCell s.cpu.s)).2 }
    let high := pulled low.2
    let target := joined high.1 low.1
    let after := (high.2.bus.read target).2
    costs .rts [0x60] 6 s after ∧
    exec .rts s = .next { high.2 with cpu := { high.2.cpu with pc := cell (target.toNat + 1) }, bus := after }

/-- The branches (45 R215 to R222, with the common rule R214). -/
def Obligations.BranchesGoWhereTheOffsetSays : Prop :=
  ∀ (off : Byte) (s : State), ∀ f ∈ branchForms off s.cpu.p,
    costs f.1 [f.2.1, off] (2 + f.2.2.toNat + (f.2.2 && branchCrosses s.cpu.pc off).toNat) s (branchBus f.2.2 off s) ∧
    exec f.1 s = .next
      { s with
        cpu := { s.cpu with pc := if f.2.2 then branchTarget s.cpu.pc off else s.cpu.pc }
        bus := branchBus f.2.2 off s }

/-- BRK (45 R223). -/
def Obligations.BrkTakesTheSoftwareInterrupt : Prop :=
  ∀ s : State,
    let back := cell (s.cpu.pc.toNat + 1)
    let saved := savedFrame back (statusImage true s.cpu.p) { s with bus := (s.bus.read s.cpu.pc).2 }
    let target := vectorRead 0xFFFE saved.bus
    costs .brk [0x00] 7 s target.2 ∧
    exec .brk s = .next
      { saved with
        cpu := { saved.cpu with pc := target.1, p := { s.cpu.p with i := true }, iPoll := true, pollSuppress := true }
        bus := target.2 }

/-- RTI (45 R224). -/
def Obligations.RtiRestoresFlagsAndPc : Prop :=
  ∀ s : State,
    let image := pulled { s with bus := ((idled s).read (stackCell s.cpu.s)).2 }
    let low := pulled image.2
    let high := pulled low.2
    costs .rti [0x40] 6 s high.2.bus ∧
    exec .rti s = .next
      { high.2 with
        cpu := { high.2.cpu with pc := joined high.1 low.1, p := statusLoaded image.1, iPoll := (statusLoaded image.1).i } }

/-- The flag instructions and NOP (46 R240 to R247). -/
def Obligations.FlagInstructionsWriteOneFlag : Prop :=
  ∀ s : State,
    (costs .clc [0x18] 2 s (idled s) ∧ exec .clc s = .next (afterIdle s fun c => { c with p := { c.p with c := false } })) ∧
    (costs .sec [0x38] 2 s (idled s) ∧ exec .sec s = .next (afterIdle s fun c => { c with p := { c.p with c := true } })) ∧
    (costs .cli [0x58] 2 s (idled s) ∧ exec .cli s = .next (afterIdle s fun c => { c with p := { c.p with i := false }, iPoll := c.p.i })) ∧
    (costs .sei [0x78] 2 s (idled s) ∧ exec .sei s = .next (afterIdle s fun c => { c with p := { c.p with i := true }, iPoll := c.p.i })) ∧
    (costs .cld [0xD8] 2 s (idled s) ∧ exec .cld s = .next (afterIdle s fun c => { c with p := { c.p with d := false } })) ∧
    (costs .sed [0xF8] 2 s (idled s) ∧ exec .sed s = .next (afterIdle s fun c => { c with p := { c.p with d := true } })) ∧
    (costs .clv [0xB8] 2 s (idled s) ∧ exec .clv s = .next (afterIdle s fun c => { c with p := { c.p with v := false } })) ∧
    (costs .nop [0xEA] 2 s (idled s) ∧ exec .nop s = .next (afterIdle s fun c => c))

/-- SLO, RLA and SRE (47 R251 to R253). -/
def Obligations.SloRlaSreShiftThenCombine : Prop :=
  ∀ (b l h : Byte) (s : State),
    (∀ f ∈ sloForms b l h,
      let t := afterModify f.mode (shiftedLeft false) s fun v c => { c with a := c.a ||| shiftedLeft false v, p := { nz (c.a ||| shiftedLeft false v) c.p with c := topBit v } }
      costs f.instr f.code f.cycles s t.bus ∧ exec f.instr s = .next t) ∧
    (∀ f ∈ rlaForms b l h,
      let t := afterModify f.mode (shiftedLeft s.cpu.p.c) s fun v c => { c with a := c.a &&& shiftedLeft s.cpu.p.c v, p := { nz (c.a &&& shiftedLeft s.cpu.p.c v) c.p with c := topBit v } }
      costs f.instr f.code f.cycles s t.bus ∧ exec f.instr s = .next t) ∧
    (∀ f ∈ sreForms b l h,
      let t := afterModify f.mode (shiftedRight false) s fun v c => { c with a := c.a ^^^ shiftedRight false v, p := { nz (c.a ^^^ shiftedRight false v) c.p with c := lowBit v } }
      costs f.instr f.code f.cycles s t.bus ∧ exec f.instr s = .next t)

/-- RRA, ISC and DCP (47 R254, R257, R258). -/
def Obligations.RraIscDcpModifyThenCompute : Prop :=
  ∀ (b l h : Byte) (s : State),
    (∀ f ∈ rraForms b l h,
      let t := afterModify f.mode (shiftedRight s.cpu.p.c) s fun v c => 
        { c with
          a := sumByte c.a (shiftedRight s.cpu.p.c v) (lowBit v)
          p := sumFlags c.a (shiftedRight s.cpu.p.c v) (lowBit v) c.p }
      costs f.instr f.code f.cycles s t.bus ∧ exec f.instr s = .next t) ∧
    (∀ f ∈ iscForms b l h,
      let t := afterModify f.mode (fun v => u8 (v.toNat + 1)) s fun v c => 
        { c with a := diffByte c.a (u8 (v.toNat + 1)) c.p.c, p := diffFlags c.a (u8 (v.toNat + 1)) c.p.c c.p }
      costs f.instr f.code f.cycles s t.bus ∧ exec f.instr s = .next t) ∧
    (∀ f ∈ dcpForms b l h,
      let t := afterModify f.mode (fun v => u8 (v.toNat + 255)) s fun v c => { c with p := compareFlags c.a (u8 (v.toNat + 255)) c.p }
      costs f.instr f.code f.cycles s t.bus ∧ exec f.instr s = .next t)

/-- SAX, LAX and LAS (47 R255, R256, R266). -/
def Obligations.SaxLaxLasMoveAandX : Prop :=
  ∀ (b l h : Byte) (s : State),
    (∀ f ∈ saxForms b l h, costs f.instr f.code f.cycles s (afterStore f.mode (s.cpu.a &&& s.cpu.x) s).bus ∧ exec f.instr s = .next (afterStore f.mode (s.cpu.a &&& s.cpu.x) s)) ∧
    (∀ f ∈ laxForms b l h, f.costs s ∧ exec f.instr s = .next (afterLoad f.operand s fun v c => { c with a := v, x := v, p := nz v c.p })) ∧
    (∀ f ∈ lasForms l h, f.costs s ∧ exec f.instr s = .next (afterLoad f.operand s fun v c => 
      { c with a := v &&& c.s, x := v &&& c.s, s := v &&& c.s, p := nz (v &&& c.s) c.p }))

/-- ANC, ALR, ARR and SBX (47 R259 to R262). -/
def Obligations.AncAlrArrSbxCombineImmediates : Prop :=
  ∀ (b : Byte) (s : State),
    (∀ f ∈ ancForms b, f.costs s ∧ exec f.instr s = .next (afterLoad f.operand s fun v c => 
      { c with a := c.a &&& v, p := { nz (c.a &&& v) c.p with c := topBit (c.a &&& v) } })) ∧
    (∀ f ∈ alrForms b, f.costs s ∧ exec f.instr s = .next (afterLoad f.operand s fun v c => 
      { c with a := shiftedRight false (c.a &&& v), p := { nz (shiftedRight false (c.a &&& v)) c.p with c := lowBit (c.a &&& v) } })) ∧
    (∀ f ∈ arrForms b, f.costs s ∧ exec f.instr s = .next (afterLoad f.operand s fun v c => 
      let r := shiftedRight c.p.c (c.a &&& v)
      { c with a := r, p := { nz r c.p with c := numBit r 6, v := numBit r 6 != numBit r 5 } })) ∧
    (∀ f ∈ sbxForms b, f.costs s ∧ exec f.instr s = .next (afterLoad f.operand s fun v c => 
      { c with x := BitVec.ofInt 8 ((c.a &&& c.x).toNat - v.toNat), p := compareFlags (c.a &&& c.x) v c.p }))

/-- ANE and LXA (47 R264, R265). The constants are parameters in State; the statement is about every value of them. -/
def Obligations.AneLxaUseTheMagicConstants : Prop :=
  ∀ (b : Byte) (s : State),
    (∀ f ∈ aneForms b, f.costs s ∧ exec f.instr s = .next (afterLoad f.operand s fun v c => 
      { c with a := (c.a ||| s.params.magicAne) &&& c.x &&& v, p := nz ((c.a ||| s.params.magicAne) &&& c.x &&& v) c.p })) ∧
    (∀ f ∈ lxaForms b, f.costs s ∧ exec f.instr s = .next (afterLoad f.operand s fun v c => 
      { c with
        a := (c.a ||| s.params.magicLxa) &&& v
        x := (c.a ||| s.params.magicLxa) &&& v
        p := nz ((c.a ||| s.params.magicLxa) &&& v) c.p })) ∧
    (∀ f ∈ aneForms b ++ lxaForms b, ∀ policy, WellFormed policy f.instr = decide (policy = .full))

/-- SHA, SHX, SHY and TAS (47 R267 to R271). -/
def Obligations.HighByteStoresMaskTheirValue : Prop :=
  ∀ (b l h : Byte) (s : State),
    (∀ f ∈ shaForms b l h,
      let t := { s with bus := storedHigh f.mode (s.cpu.a &&& s.cpu.x) s.cpu s.bus }
      costs f.instr f.code f.cycles s t.bus ∧ exec f.instr s = .next t) ∧
    (∀ f ∈ shxForms l h,
      let t := { s with bus := storedHigh f.mode s.cpu.x s.cpu s.bus }
      costs f.instr f.code f.cycles s t.bus ∧ exec f.instr s = .next t) ∧
    (∀ f ∈ shyForms l h,
      let t := { s with bus := storedHigh f.mode s.cpu.y s.cpu s.bus }
      costs f.instr f.code f.cycles s t.bus ∧ exec f.instr s = .next t) ∧
    (∀ f ∈ tasForms l h,
      let t :=
        { s with
          cpu := { s.cpu with s := s.cpu.a &&& s.cpu.x }
          bus := storedHigh f.mode (s.cpu.a &&& s.cpu.x) s.cpu s.bus }
      costs f.instr f.code f.cycles s t.bus ∧ exec f.instr s = .next t) ∧
    (∀ f ∈ highForms b l h, ∀ policy, WellFormed policy f.instr = decide (policy = .full))

/-- The undocumented NOPs (47 R272). -/
def Obligations.UndocumentedNopsOnlyAccessTheBus : Prop :=
  ∀ (b l h : Byte) (s : State),
    (∀ f ∈ nopForms b l h, f.costs s ∧ exec f.instr s = .next (afterLoad f.operand s fun _ c => c)) ∧
    (∀ f ∈ impliedNopForms, costs f.1 [f.2] 2 s (idled s) ∧ exec f.1 s = .next (afterIdle s id))

/-- JAM (47 R273), with the jammed idle step and its end by a reset. -/
def Obligations.JamStopsTheCpuUntilReset : Prop :=
  (∀ s : State, ∀ f ∈ jamForms, costs f.1 [f.2] 1 s s.bus ∧ exec f.1 s = .next { s with cpu := { s.cpu with jammed := true } }) ∧
  (∀ s : State, s.cpu.jammed = true → s.cpu.resetPending = false →
    cpuStep s = .next { opened s with cpu := { s.cpu with cycles := s.cpu.cycles + 1 }, stepCycles := 1 }) ∧
  (∀ (n : Nat) (s t : State), s.cpu.jammed = true → s.cpu.resetPending = false → runToBreakpoint (fun _ => false) n s = .next t →
    t.cpu = { s.cpu with nmiPending := t.cpu.nmiPending, nmiPrev := t.cpu.nmiPrev, cycles := s.cpu.cycles + n } ∧
      t.bus.ram = s.bus.ram) ∧
  (∀ s : State, s.cpu.resetPending = true → ∃ t, cpuStep s = .next t ∧ t.cpu.jammed = false)

/-- A step runs the decoded instruction (40_addressing R100; 60_exceptions R329, R330). -/
def Obligations.StepRunsTheDecodedInstruction : Prop :=
  ∀ (i : Instr) (s t : State), s.bus.ppu.inBounds s.params.region → Runs i s → exec i (ready i s) = .next t →
    step s = .next (t.endInstruction i).runDevices

/-- What a CPU step adds to the instruction's meaning (10_state R41, R44; 40_addressing R113; 60_exceptions R329). -/
def Obligations.InstructionStepCountsItsAccesses : Prop :=
  ∀ (i : Instr) (s t : State), Runs i s → exec i (ready i s) = .next t → t.bus.dmaRequest = none →
    cpuStep s = .next
      { t with
        cpu :=
          { t.cpu with
            iPoll := if i = .cli ∨ i = .sei ∨ i = .plp then s.cpu.p.i else t.cpu.p.i
            cycles := s.cpu.cycles + t.bus.log.length }
        stepCycles := t.bus.log.length }

/-- The poll (60_exceptions R305, R307). -/
def Obligations.PollTakesNmiBeforeIrq : Prop :=
  ∀ s : State,
    (s.cpu.pollSuppress = true → s.poll = none) ∧
    (s.cpu.pollSuppress = false → s.cpu.nmiPending = true → s.poll = some .nmi) ∧
    (s.cpu.pollSuppress = false → s.cpu.nmiPending = false → (s.bus.apu.frameIrq = true ∨ s.bus.apu.dmcIrq = true) → s.cpu.iPoll = false →
      s.poll = some .irq) ∧
    (s.cpu.nmiPending = false → s.bus.apu.frameIrq = false → s.bus.apu.dmcIrq = false → s.poll = none) ∧
    (s.cpu.nmiPending = false → s.cpu.iPoll = true → s.poll = none)

/-- The NMI and IRQ sequence (60_exceptions R309). -/
def Obligations.InterruptSequenceSavesAndVectors : Prop :=
  ∀ (k : Interrupt) (s : State), s.cpu.resetPending = false → s.cpu.jammed = false → s.poll = some k →
    let o := opened s
    let saved := savedFrame s.cpu.pc (statusImage false s.cpu.p) { o with bus := ((o.bus.read s.cpu.pc).2.read s.cpu.pc).2 }
    let target := vectorRead (if k = .nmi then 0xFFFA else 0xFFFE) saved.bus
    target.2.log.length = 7 ∧
    cpuStep s = .next
      { saved with
        cpu :=
          { saved.cpu with
            pc := target.1
            p := { s.cpu.p with i := true }
            nmiPending := if k = .nmi then false else s.cpu.nmiPending
            iPoll := true
            pollSuppress := true
            cycles := s.cpu.cycles + 7 }
        bus := target.2
        stepCycles := 7 }

/-- The reset sequence (70_reset R362). -/
def Obligations.ResetSequenceWritesNothing : Prop :=
  ∀ s : State, s.cpu.resetPending = true →
    let b2 := (((opened s).bus.read s.cpu.pc).2.read s.cpu.pc).2
    let b3 := (b2.read (stackCell s.cpu.s)).2
    let b4 := (b3.read (stackCell (u8 (s.cpu.s.toNat + 255)))).2
    let b5 := (b4.read (stackCell (u8 (s.cpu.s.toNat + 254)))).2
    let target := vectorRead 0xFFFC b5
    target.2.log.length = 7 ∧
    cpuStep s = .next
      { s with
        cpu :=
          { s.cpu with
            s := u8 (s.cpu.s.toNat + 253)
            pc := target.1
            p := { s.cpu.p with i := true }
            nmiPending := false
            resetPending := false
            iPoll := true
            pollSuppress := true
            jammed := false
            cycles := s.cpu.cycles + 7 }
        bus := target.2
        stepCycles := 7 }

/-- The power-on column of 10_state R48; and State.reset is no state of its own: the first step leads to it (the model's choice, log 2, 5, 6). -/
def Obligations.PowerOnStepGivesTheResetValues : Prop :=
  (∀ (params : Params) (regs : PowerOnRegs) (cartridge : Mapper), ∃ (t : State) (l h : Byte),
    cpuStep (State.powerOn params regs cartridge) = .next t ∧
    (regs = .zero → t.cpu.a = 0 ∧ t.cpu.x = 0 ∧ t.cpu.y = 0) ∧
    (regs = .draw → t.cpu.a = Config.drawA ∧ t.cpu.x = Config.drawX ∧ t.cpu.y = Config.drawY) ∧
    t.cpu.s = 0xFD ∧ t.cpu.p = { c := false, z := false, i := true, d := false, v := false, n := false } ∧
    t.bus.byteAt 0xFFFC = some l ∧ t.bus.byteAt 0xFFFD = some h ∧ t.cpu.pc = joined h l ∧ t.bus.openBus = h ∧
    t.cpu.nmiPending = false ∧ t.cpu.nmiPrev = false ∧ t.cpu.resetPending = false ∧ t.cpu.iPoll = true ∧ t.cpu.pollSuppress = true ∧
    t.cpu.jammed = false ∧ t.cpu.cycles = 7 ∧ ∀ a : Addr, a.toNat < 0x800 → t.bus.byteAt a = some (Config.ramInit a.toNat)) ∧
  ∃ t : State, step (State.powerOn Params.reset .zero Mapper.empty) = .next t ∧
      t.cpu = State.reset.cpu ∧ t.bus.ram = State.reset.bus.ram ∧ t.bus.openBus = State.reset.bus.openBus ∧
      t.bus.mapper = State.reset.bus.mapper ∧ t.bus.log = State.reset.bus.log ∧ t.bus.strobe = State.reset.bus.strobe ∧
      t.bus.dmaRequest = State.reset.bus.dmaRequest ∧ t.bus.deviceReads = State.reset.bus.deviceReads ∧
      t.dotFrac = State.reset.dotFrac ∧ t.stepCycles = State.reset.stepCycles ∧ t.params = State.reset.params ∧
      t.bus.apu = { State.reset.bus.apu with frameIrq := t.bus.apu.frameIrq, dmcIrq := t.bus.apu.dmcIrq } ∧
      t.bus.ppu =
        { State.reset.bus.ppu with sprite0Hit := t.bus.ppu.sprite0Hit, spriteOverflow := t.bus.ppu.spriteOverflow }

/-- The reset of a running machine (70_reset R361); A, X and Y are kept by the reset sequence (R362). That the reset also keeps sprite0_hit,
sprite_overflow, the frame parity, the PPU write toggle, OAMADDR, OAM, the PPUSCROLL and PPUADDR bytes, $4000 to $4013 ($4010 among them), the
strobe and the model's own counts is the model's choice (log 12): R361 does not name them. -/
def Obligations.HostResetKeepsTheMachine : Prop :=
  ∀ s : State, s.bus.ppu.inBounds s.params.region →
    s.hostReset =
      { s with
        cpu := { s.cpu with resetPending := true }
        bus :=
          { s.bus with
            ppu := { s.bus.ppu with ctrl := 0, mask := 0 }
            apu := { s.bus.apu with enable := 0, frameIrq := false, dmcIrq := false } } } ∧
    ∃ t, step s.hostReset = .next t ∧ t.cpu.jammed = false ∧ t.cpu.resetPending = false ∧ t.bus.ram = s.bus.ram ∧
      t.bus.mapper = s.bus.mapper ∧ t.cpu.a = s.cpu.a ∧ t.cpu.x = s.cpu.x ∧ t.cpu.y = s.cpu.y

/-- The latency of the interrupt mask (10_state R41; 70_reset R366), at the poll that follows the whole step with its device ticks (60_exceptions R307). -/
def Obligations.MaskChangesReachThePollLate : Prop :=
  ∀ s : State, s.bus.ppu.inBounds s.params.region →
    (Runs .cli s → ∃ t, step s = .next t ∧ t.cpu.p.i = false ∧ t.cpu.iPoll = s.cpu.p.i ∧ t.poll = taken s.cpu.p.i t) ∧
    (Runs .sei s → ∃ t, step s = .next t ∧ t.cpu.p.i = true ∧ t.cpu.iPoll = s.cpu.p.i ∧ t.poll = taken s.cpu.p.i t) ∧
    (∀ v : Byte, Runs .plp s → s.bus.byteAt (stackCell (u8 (s.cpu.s.toNat + 1))) = some v →
      ∃ t, step s = .next t ∧ t.cpu.p.i = numBit v 2 ∧ t.cpu.iPoll = s.cpu.p.i ∧ t.poll = taken s.cpu.p.i t) ∧
    (∀ v : Byte, Runs .rti s → s.bus.byteAt (stackCell (u8 (s.cpu.s.toNat + 1))) = some v →
      ∃ t, step s = .next t ∧ t.cpu.p.i = numBit v 2 ∧ t.cpu.iPoll = numBit v 2 ∧ t.poll = taken (numBit v 2) t) ∧
    (∀ (i : Instr) (t : State), Runs i s → i ∉ [.cli, .sei, .plp] → step s = .next t →
      t.cpu.iPoll = t.cpu.p.i ∧ (i ≠ .brk → t.poll = taken t.cpu.p.i t))

/-- The first instruction of a handler always runs (60_exceptions R311). -/
def Obligations.HandlersFirstInstructionIsNotInterrupted : Prop :=
  ∀ s t : State, step s = .next t →
    (s.cpu.resetPending = true ∨
      (s.cpu.resetPending = false ∧ s.cpu.jammed = false ∧ (∃ k, s.poll = some k)) ∨ Runs .brk s) →
    t.poll = none

/-- The vertical-blank flag (60_exceptions R319, R323) and the edge detector (R304). That a tick changes none of PPUCTRL, PPUMASK, OAMADDR and OAM is
the model's choice (log 10): of the rendering work that R323 leaves outside the spec it keeps the two sprite flags only. -/
def Obligations.VblankAndNmiFollowThePpuTick : Prop :=
  (∀ (region : Region) (p : PpuState),
    (p.tick region).vblank =
      (if p.scanline = 241 ∧ p.dot = 1 then true else if p.scanline = -1 ∧ p.dot = 1 then false else p.vblank) ∧
    (p.tick region).ctrl = p.ctrl ∧ (p.tick region).mask = p.mask ∧ (p.tick region).oamAddr = p.oamAddr ∧
    (p.tick region).oam = p.oam) ∧
  ∀ s : State,
    let t := s.ppuTick
    let line := t.bus.ppu.vblank && numBit t.bus.ppu.ctrl 7
    t.cpu = { s.cpu with nmiPending := s.cpu.nmiPending || (line && !s.cpu.nmiPrev), nmiPrev := line }

/-- The PPU position over any number of ticks, and the first vertical blank (60_exceptions R323). -/
def Obligations.FrameHasItsNumberOfDots : Prop :=
  (lastLine .ntsc + 2) * 341 = 89342 ∧
  (∀ (region : Region) (p : PpuState) (n : Nat), p.inBounds region → numBit p.mask 3 = false → numBit p.mask 4 = false →
    let frame := (lastLine region + 2) * 341
    (p.ticked region n).position = (p.position + n) % frame ∧ (p.ticked region n).inBounds region ∧
    ((p.ticked region n).framesReady : Int) = p.framesReady + (p.position + n) / frame) ∧
  (∀ n ≤ 82182, (PpuState.powerOn.ticked .ntsc n).vblank = false) ∧ (PpuState.powerOn.ticked .ntsc 82183).vblank = true

/-- Reads of $2002 and $4015 (60_exceptions R321, R325, R326). -/
def Obligations.StatusReadsClearTheirFlags : Prop :=
  ∀ b : Bus,
    (∀ a, ppuIndex a 2 →
      let v := u8 (128 * b.ppu.vblank.toNat + 64 * b.ppu.sprite0Hit.toNat + 32 * b.ppu.spriteOverflow.toNat + b.openBus.toNat % 32)
      b.read a =
        (v, { b with ppu := { b.ppu with vblank := false, toggle := false }, openBus := v, log := ⟨a, .read, v⟩ :: b.log })) ∧
    numBit (b.read 0x4015).1 7 = b.apu.dmcIrq ∧ numBit (b.read 0x4015).1 6 = b.apu.frameIrq ∧
    (b.read 0x4015).2.apu = { b.apu with frameIrq := false } ∧ (b.read 0x4015).2.ppu = b.ppu

/-- Register writes (20_memory R60, R61; 60_exceptions R320, R325, R326, R328; 70_reset R369). That a PPU register write has this same effect during
active rendering is the model's choice (log 28): R60 and R369 want it applied with a corrupting effect and give none. -/
def Obligations.DeviceWritesReachTheirRegisters : Prop :=
  ∀ (b : Bus) (v : Byte),
    let after (c : Bus) (a : Addr) : Bus := { c with openBus := v, log := ⟨a, .write, v⟩ :: b.log }
    (∀ a, ppuIndex a 0 → b.write a v = after { b with ppu := { b.ppu with ctrl := v } } a) ∧
    (∀ a, ppuIndex a 1 → b.write a v = after { b with ppu := { b.ppu with mask := v } } a) ∧
    (∀ a, ppuIndex a 3 → b.write a v = after { b with ppu := { b.ppu with oamAddr := v } } a) ∧
    (∀ a, ppuIndex a 4 → b.ppu.oam.wf Config.oamInit 256 → ∃ oam,
      b.write a v = after { b with ppu := { b.ppu with oam := oam, oamAddr := u8 (b.ppu.oamAddr.toNat + 1) } } a ∧
      ∀ k, oam.read Config.oamInit k = if k = b.ppu.oamAddr.toNat then v else b.ppu.oam.read Config.oamInit k) ∧
    (∀ a : Addr, 0x4000 ≤ a.toNat → a.toNat ≤ 0x4013 → a ≠ 0x4010 → b.apu.channels.wf zeroFill 0x4018 → ∃ channels,
      b.write a v = after { b with apu := { b.apu with channels := channels } } a ∧
      ∀ k, channels.read zeroFill k = if k = a.toNat then v else b.apu.channels.read zeroFill k) ∧
    b.write 0x4010 v = after { b with apu := { b.apu with dmcFlags := v, dmcIrq := b.apu.dmcIrq && numBit v 7 } } 0x4010 ∧
    b.write 0x4015 v = after { b with apu := { b.apu with enable := v, dmcIrq := false } } 0x4015 ∧
    b.write 0x4017 v = after { b with apu := { b.apu with frameCounter := v, frameIrq := b.apu.frameIrq && !numBit v 6 } } 0x4017 ∧
    b.write 0x4014 v = after { b with dmaRequest := some v } 0x4014 ∧
    b.write 0x4016 v = after { b with strobe := numBit v 0 } 0x4016 ∧
    (∀ a : Addr, 0x2000 ≤ a.toNat → (b.write a v).ram = b.ram ∧ (b.write a v).mapper = b.mapper)

/-- Open bus (20_memory R52, R53, R62). That reads of $2004, $2007, $4015 (bits 5 to 0), $4016 and $4017 do not depend on open bus is the model's choice
(log 8): by 93_implementation_defined row 15 these bytes are any value. -/
def Obligations.OpenBusIsTheLastDrivenByte : Prop :=
  ∀ (b : Bus) (a : Addr) (v : Byte),
    (b.write a v).openBus = v ∧ (b.read a).2.openBus = (b.read a).1 ∧
    (undriven a → b.read a = (b.openBus, { b with log := ⟨a, .read, b.openBus⟩ :: b.log })) ∧
    (¬ undriven a → ¬ ppuIndex a 2 → (Bus.read a { b with openBus := v }).1 = (b.read a).1)

/-- The address map (20_memory R58, R59, R60, R67). -/
def Obligations.AddressesReachTheirTargets : Prop :=
  ∀ (b : Bus) (a : Addr) (v : Byte),
    (a.toNat < 0x2000 →
      let r := b.ram.read Config.ramInit (a.toNat % 2048)
      b.read a = (r, { b with openBus := r, log := ⟨a, .read, r⟩ :: b.log })) ∧
    (0x2000 ≤ a.toNat → a.toNat < 0x4000 →
      let c := cell (0x2000 + a.toNat % 8)
      (b.read a).1 = (b.read c).1 ∧ (b.read a).2 = { (b.read c).2 with log := ⟨a, .read, (b.read c).1⟩ :: b.log } ∧
      b.write a v = { b.write c v with log := ⟨a, .write, v⟩ :: b.log }) ∧
    (0x8000 ≤ a.toNat →
      let r := b.mapper.prg.read zeroFill ((a.toNat - 0x8000) % (if b.mapper.prgSize = .k16 then 16384 else 32768))
      b.read a = (r, { b with openBus := r, log := ⟨a, .read, r⟩ :: b.log }))

/-- Writes that have no target (20_memory R69), and: no meaning stops. -/
def Obligations.WritesToReadOnlyTargetsAreIgnored : Prop :=
  (∀ (b : Bus) (a : Addr) (v : Byte), (0x4018 ≤ a.toNat ∨ ppuIndex a 2) →
    b.write a v = { b with openBus := v, log := ⟨a, .write, v⟩ :: b.log }) ∧
  (∀ (i : Instr) (s : State), ∃ t, exec i s = .next t)

/-- Reading storage after a write (20_memory R53, R59). -/
def Obligations.RamReadsBackWhatWasWritten : Prop :=
  ∀ (b : Bus) (a c : Addr) (v : Byte), b.ram.wf Config.ramInit 0x800 →
    (sameRamByte a c → (b.write a v).byteAt c = some v) ∧ (¬ sameRamByte a c → (b.write a v).byteAt c = b.byteAt c)

/-- The memory frame of every instruction that stores nothing. -/
def Obligations.InstructionsThatStoreNothingKeepMemory : Prop :=
  ∀ (b l h : Byte) (s t : State) (i : Instr),
    i ∈ (readForms b l h).map (·.instr) ++ registerInstrs b l h ++ [.pla, .plp, .rts, .rti] → exec i s = .next t →
    ∀ a, t.bus.byteAt a = s.bus.byteAt a

/-- The memory frame of every instruction that stores at a memory operand. -/
def Obligations.StoresChangeTheAddressedByteOnly : Prop :=
  ∀ (b l h : Byte) (s t : State),
    (∀ f ∈ storeForms b l h ++ modifyForms b l h, exec f.instr s = .next t →
      ∀ a, ¬ sameRamByte (cell (formed f.mode s.cpu s.bus).ea) a → t.bus.byteAt a = s.bus.byteAt a) ∧
    (∀ f ∈ shaForms b l h ++ tasForms l h, exec f.instr s = .next t →
      ∀ a, ¬ sameRamByte (highTarget f.mode (s.cpu.a &&& s.cpu.x) s.cpu s.bus) a → t.bus.byteAt a = s.bus.byteAt a) ∧
    (∀ f ∈ shxForms l h, exec f.instr s = .next t →
      ∀ a, ¬ sameRamByte (highTarget f.mode s.cpu.x s.cpu s.bus) a → t.bus.byteAt a = s.bus.byteAt a) ∧
    (∀ f ∈ shyForms l h, exec f.instr s = .next t →
      ∀ a, ¬ sameRamByte (highTarget f.mode s.cpu.y s.cpu s.bus) a → t.bus.byteAt a = s.bus.byteAt a)

/-- The memory frame of the pushes. -/
def Obligations.PushesChangeTheirStackBytesOnly : Prop :=
  (∀ s t : State, ∀ i ∈ [Instr.pha, Instr.php], exec i s = .next t →
    ∀ a, ¬ sameRamByte (stackCell s.cpu.s) a → t.bus.byteAt a = s.bus.byteAt a) ∧
  (∀ (l h : Byte) (s t : State), exec (.jsrAbs l h) s = .next t →
    ∀ a, (∀ k ≤ 1, ¬ sameRamByte (stackCell (s.cpu.s - u8 k)) a) → t.bus.byteAt a = s.bus.byteAt a) ∧
  (∀ s t : State,
    (exec .brk s = .next t ∨
      (s.cpu.resetPending = false ∧ s.cpu.jammed = false ∧ (∃ k, s.poll = some k) ∧ cpuStep s = .next t)) →
    ∀ a, (∀ k ≤ 2, ¬ sameRamByte (stackCell (s.cpu.s - u8 k)) a) → t.bus.byteAt a = s.bus.byteAt a)

/-- The writers of each register and flag, over the whole instruction set (10_state R21 to R33, R46). -/
def Obligations.OnlyTheListedOpcodesWriteEachRegister : Prop :=
  ∀ (i : Instr) (s t : State), exec i s = .next t →
    (i.opcode ∉ opcodesWritingA → t.cpu.a = s.cpu.a) ∧ (i.opcode ∉ opcodesWritingX → t.cpu.x = s.cpu.x) ∧
    (i.opcode ∉ opcodesWritingY → t.cpu.y = s.cpu.y) ∧ (i.opcode ∉ opcodesWritingS → t.cpu.s = s.cpu.s) ∧
    (i.opcode ∉ opcodesWritingPC → t.cpu.pc = s.cpu.pc) ∧ (i.opcode ∉ opcodesWritingC → t.cpu.p.c = s.cpu.p.c) ∧
    (i.opcode ∉ opcodesWritingNZ → t.cpu.p.n = s.cpu.p.n ∧ t.cpu.p.z = s.cpu.p.z) ∧
    (i.opcode ∉ opcodesWritingI → t.cpu.p.i = s.cpu.p.i) ∧ (i.opcode ∉ opcodesWritingD → t.cpu.p.d = s.cpu.p.d) ∧
    (i.opcode ∉ opcodesWritingV → t.cpu.p.v = s.cpu.p.v) ∧
    t.cpu.nmiPending = s.cpu.nmiPending ∧ t.cpu.nmiPrev = s.cpu.nmiPrev ∧ t.cpu.resetPending = s.cpu.resetPending ∧
    t.cpu.cycles = s.cpu.cycles ∧ t.params = s.params

/-- D is stored and has no effect on any computation (10_state R31). -/
def Obligations.DecimalFlagChangesNoComputation : Prop :=
  ∀ (i : Instr) (s t : State) (d : Bool), i ∉ [.php, .brk, .plp, .rti, .cld, .sed] → exec i s = .next t →
    exec i (withD d s) = .next (withD d t)

/-- Entries and returns are pairs (45 R212, R213; 60_exceptions R313), across a wrap of the stack too. -/
def Obligations.ReturnsUndoTheirEntries : Prop :=
  (∀ (l h : Byte) (s t u : State), s.bus.ram.wf Config.ramInit 0x800 → exec (.jsrAbs l h) s = .next t → sameFrame 2 t u →
      ∃ v, exec .rts u = .next v ∧ v.cpu.pc = cell (s.cpu.pc.toNat + 1) ∧ v.cpu.s = s.cpu.s) ∧
  (∀ (s t u : State), s.bus.ram.wf Config.ramInit 0x800 → s.cpu.resetPending = false → s.cpu.jammed = false →
    (∃ k, s.poll = some k) → cpuStep s = .next t → sameFrame 3 t u →
    ∃ v, exec .rti u = .next v ∧ v.cpu.pc = s.cpu.pc ∧ v.cpu.p = s.cpu.p ∧ v.cpu.s = s.cpu.s ∧ v.cpu.iPoll = s.cpu.p.i) ∧
  (∀ (s t u : State), s.bus.ram.wf Config.ramInit 0x800 → exec .brk s = .next t → sameFrame 3 t u →
    ∃ v, exec .rti u = .next v ∧ v.cpu.pc = cell (s.cpu.pc.toNat + 1) ∧ v.cpu.p = s.cpu.p ∧ v.cpu.s = s.cpu.s ∧
      v.cpu.iPoll = s.cpu.p.i)

/-- OAM DMA (60_exceptions R328). That the bytes reach OAM in the same way during active rendering is the model's choice (log 28). -/
def Obligations.OamDmaCopiesThePage : Prop :=
  (∀ s : State, s.bus.dmaRequest = none → s.runDma = s) ∧
  (∀ (s : State) (page : Byte), s.bus.dmaRequest = some page →
    let n := if s.cpu.cycles % 2 = 1 then 514 else 513
    let copied := (List.range 256).foldl
      (fun b k => let r := b.read (cell (page.toNat * 256 + k)); r.2.write (cell 0x2004) r.1) s.bus
    s.runDma =
      { s with
        cpu := { s.cpu with cycles := s.cpu.cycles + n }
        bus := { copied with dmaRequest := none }
        stepCycles := s.stepCycles + n }) ∧
  (∀ (s : State) (page : Byte), s.bus.dmaRequest = some page → (page.toNat < 0x20 ∨ 0x80 ≤ page.toNat) →
    s.bus.ppu.oam.wf Config.oamInit 256 →
    s.runDma.bus.ppu.oamAddr = s.bus.ppu.oamAddr ∧
    ∀ k < 256, s.bus.byteAt (cell (page.toNat * 256 + k)) =
      some (s.runDma.bus.ppu.oam.read Config.oamInit ((s.bus.ppu.oamAddr.toNat + k) % 256)))

/-- The clock ratio (60_exceptions R331), and the cycles and device ticks of every step (R329, R330). -/
def Obligations.DevicesTickForEveryCycle : Prop :=
  (∀ f n, ppuTicks .ntsc f n = 3 * n) ∧
  (∀ f n, 5 * ppuTicks .pal f n + nextDotFrac .pal f n = 16 * n + f ∧ nextDotFrac .pal f n < 5) ∧
  (∀ params regs cartridge, (State.powerOn params regs cartridge).dotFrac = 0) ∧
  ∀ s t : State, step s = .next t →
    1 ≤ t.stepCycles ∧ t.cpu.cycles = s.cpu.cycles + t.stepCycles ∧ t.bus.apu.ticks = s.bus.apu.ticks + t.stepCycles ∧
    t.bus.ppu.ticks = s.bus.ppu.ticks + ppuTicks s.params.region s.dotFrac t.stepCycles ∧
    t.dotFrac = nextDotFrac s.params.region s.dotFrac t.stepCycles

/-- Loading a cartridge (60_exceptions R302). -/
def Obligations.CartridgeLoadsOrFailsAtOnce : Prop :=
  ∀ (number : Nat) (image : List Byte),
    (number = 0 → (image.length = 16384 ∨ image.length = 32768) →
      ∃ m, Cartridge.load number image = .ok m ∧ m.prgSize.bytes = image.length ∧ m.prg.wf zeroFill m.prgSize.bytes ∧
        ∀ (k : Nat) (hk : k < image.length), m.prg.read zeroFill k = image[k]) ∧
    (number ≠ 0 → Cartridge.load number image = .error (.unsupportedMapper number)) ∧
    (number = 0 → image.length ≠ 16384 → image.length ≠ 32768 →
      Cartridge.load number image = .error (.invalidBankSize image.length))

/-- The debug view agrees with the machine (60_exceptions R334). -/
def Obligations.DisassemblyShowsTheNextInstruction : Prop :=
  ∀ (i : Instr) (s : State), Runs i s → s.disassemble s.cpu.pc = .ok i

/-- The invariant at reset. -/
def Obligations.InvariantHoldsAtReset : Prop :=
  State.reset.Inv

/-- The invariant of the machine, kept by every step from every state that has it. -/
def Obligations.EveryStepKeepsTheInvariant : Prop :=
  ∀ s t : State, s.Inv → step s = .next t → t.Inv ∧ t.bus.mapper = s.bus.mapper ∧ t.params = s.params

/-- Nothing the emulated program does is an error (60_exceptions R300, R336), over runs of any length from any state with the invariant. -/
def Obligations.NoProgramCanStopTheMachine : Prop :=
  ∀ (n : Nat) (s : State), s.Inv →
    (∀ f, runToBreakpoint (fun _ => false) n s ≠ .fault f) ∧
    (s.params.policy = .full → ∃ t, runToBreakpoint (fun _ => false) n s = .next t ∧ t.Inv)

/-- The default column of 00_scope R9, with what the default ILLEGAL_POLICY refuses (30_encoding R86, R87) at the first step after reset. The placing of
the word is withFetchWord (log 18); that State.reset itself has the policy Full is the model's choice (log 6). -/
def Obligations.DefaultParametersRefuseTheUnstableOpcodes : Prop :=
  Params.byDefault = { policy := .stable, region := .ntsc, magicAne := Config.magicAne, magicLxa := Config.magicLxa } ∧
  PowerOnRegs.byDefault = .zero ∧
  State.resetByDefault = { State.reset with params := Params.byDefault } ∧
  State.reset.params = { Params.byDefault with policy := .full } ∧
  unstableOpcodes.length = 7 ∧
  ∀ w : Nat,
    let s := State.resetByDefault.withFetchWord 24 w
    (u8 w ∈ unstableOpcodes → step s = .refused (.illegalOpcode (u8 w) 0x8000)) ∧
    (u8 w ∉ unstableOpcodes → ∃ t, step s = .next t)
end

