-- ==== Sys2Proof/Laws/Bits.lean ====
section
/-! SUPPORT. Bits, bytes and addresses: what `lo`, `hi`, `mkAddr`, `bit` and the byte images do. -/

namespace Sys2Proof.Machine

/-- `addr(h, l) = h * 256 + l` (00_scope R10). -/
theorem mkAddr_toNat (h l : Byte) : (mkAddr h l).toNat = h.toNat * 256 + l.toNat := by
  simp only [mkAddr, BitVec.toNat_append]
  rw [Nat.shiftLeft_eq, Nat.mul_comm, ← Nat.two_pow_add_eq_or_of_lt l.isLt, Nat.mul_comm]

theorem lo_toNat (a : Addr) : (lo a).toNat = a.toNat % 256 := by
  simp [lo]

theorem hi_toNat (a : Addr) : (hi a).toNat = a.toNat / 256 := by
  simp only [hi, BitVec.toNat_setWidth, BitVec.toNat_ushiftRight, Nat.shiftRight_eq_div_pow]
  have := a.isLt
  omega

@[simp] theorem lo_mkAddr (h l : Byte) : lo (mkAddr h l) = l := by
  apply BitVec.eq_of_toNat_eq
  rw [lo_toNat, mkAddr_toNat]
  have := l.isLt
  omega

@[simp] theorem hi_mkAddr (h l : Byte) : hi (mkAddr h l) = h := by
  apply BitVec.eq_of_toNat_eq
  rw [hi_toNat, mkAddr_toNat]
  have := l.isLt
  omega

@[simp] theorem mkAddr_hi_lo (a : Addr) : mkAddr (hi a) (lo a) = a := by
  apply BitVec.eq_of_toNat_eq
  rw [mkAddr_toNat, lo_toNat, hi_toNat]
  omega

theorem zext_toNat (b : Byte) : (zext b).toNat = b.toNat := by
  have := b.isLt
  simp only [zext, BitVec.toNat_setWidth]
  omega

/-- Bit 7 is the sign (10_state R33). -/
theorem bit_seven (v : Byte) : bit v 7 = decide (128 ≤ v.toNat) := by
  have h := BitVec.msb_eq_decide v
  rw [BitVec.msb_eq_getLsbD_last] at h
  simpa [bit] using h

/-- `Pload` undoes `Pbyte`, whatever the break bit (10_state R33, R34). -/
@[simp] theorem Flags.pload_pbyte (b : Bool) (p : Flags) : Flags.pload (p.pbyte b) = p := by
  rcases p with ⟨c, z, i, d, v, n⟩
  cases b <;> cases c <;> cases z <;> cases i <;> cases d <;> cases v <;> cases n <;> rfl

/-- Bits 5 and 4 of a pushed image (10_state R33). -/
theorem Flags.pbyte_break (b : Bool) (p : Flags) : bit (p.pbyte b) 5 = true ∧ bit (p.pbyte b) 4 = b := by
  rcases p with ⟨c, z, i, d, v, n⟩
  cases b <;> cases c <;> cases z <;> cases i <;> cases d <;> cases v <;> cases n <;> decide

end Sys2Proof.Machine
end

