-- ==== Sys2Proof/Laws/Memory.lean ====
section
/-! SUPPORT. Byte stores: reading after writing, and the canonical form that every operation keeps. -/

namespace Sys2Proof.Machine

@[simp] theorem Memory.find_nil (a : Nat) : Memory.find [] a = none := rfl

theorem Memory.find_cons (k : Nat) (v : Byte) (m : Memory) (a : Nat) :
    Memory.find ((k, v) :: m) a = if k = a then some v else Memory.find m a := rfl

@[simp] theorem Memory.read_nil (u : Nat → Byte) (a : Nat) : Memory.read u [] a = u a := rfl

/-- The order part of the canonical form. -/
abbrev Memory.Rising (m : Memory) : Prop := List.Pairwise (fun c d => c.1 < d.1) m

theorem Memory.find_eq_none_of_lt {m : Memory} {a : Nat} (h : ∀ c ∈ m, a < c.1) : m.find a = none := by
  induction m with
  | nil => rfl
  | cons c m ih =>
    obtain ⟨k, v⟩ := c
    have hk : a < k := h (k, v) (by simp)
    rw [Memory.find_cons, if_neg (by omega)]
    exact ih fun c hc => h c (by simp [hc])

theorem Memory.find_some_mem {m : Memory} {a : Nat} {v : Byte} (h : m.find a = some v) : (a, v) ∈ m := by
  induction m with
  | nil => simp at h
  | cons c m ih =>
    obtain ⟨k, w⟩ := c
    rw [Memory.find_cons] at h
    by_cases hk : k = a
    · simp_all
    · rw [if_neg hk] at h
      exact List.mem_cons_of_mem _ (ih h)

@[simp] theorem Memory.find_put_same (m : Memory) (a : Nat) (v : Byte) : (m.put a v).find a = some v := by
  induction m with
  | nil => simp [Memory.put, Memory.find_cons]
  | cons c m ih =>
    obtain ⟨k, w⟩ := c
    rw [Memory.put]
    split
    · simp [Memory.find_cons]
    · split
      · simp [Memory.find_cons]
      · rw [Memory.find_cons, if_neg (by omega), ih]

theorem Memory.find_put_other (m : Memory) {a b : Nat} (v : Byte) (h : b ≠ a) : (m.put a v).find b = m.find b := by
  induction m with
  | nil => simp [Memory.put, Memory.find_cons, Ne.symm h]
  | cons c m ih =>
    obtain ⟨k, w⟩ := c
    rw [Memory.put]
    split
    · rw [Memory.find_cons, if_neg (Ne.symm h)]
    · split
      · rename_i hk
        rw [Memory.find_cons, if_neg (Ne.symm h), Memory.find_cons, if_neg (by omega)]
      · rw [Memory.find_cons, Memory.find_cons, ih]

theorem Memory.find_erase_other (m : Memory) {a b : Nat} (h : b ≠ a) : (m.erase a).find b = m.find b := by
  induction m with
  | nil => rfl
  | cons c m ih =>
    obtain ⟨k, w⟩ := c
    rw [Memory.erase]
    split
    · rw [Memory.find_cons, if_neg (by omega)]
    · rw [Memory.find_cons, Memory.find_cons, ih]

theorem Memory.find_erase_same {m : Memory} (a : Nat) (hm : m.Rising) : (m.erase a).find a = none := by
  induction m with
  | nil => rfl
  | cons c m ih =>
    obtain ⟨k, w⟩ := c
    rw [Memory.Rising, List.pairwise_cons] at hm
    rw [Memory.erase]
    split
    · rename_i hk
      exact Memory.find_eq_none_of_lt fun c hc => hk ▸ hm.1 c hc
    · rename_i hk
      rw [Memory.find_cons, if_neg hk]
      exact ih hm.2

/-- A byte written is read back. -/
theorem Memory.read_write_same {u : Nat → Byte} {m : Memory} (a : Nat) (v : Byte) (hm : m.Rising) :
    (m.write u a v).read u a = v := by
  unfold Memory.read Memory.write
  split
  · rename_i h
    rw [Memory.find_erase_same a hm, h]
    rfl
  · simp

/-- Every other byte is left alone. -/
theorem Memory.read_write_other (u : Nat → Byte) (m : Memory) {a b : Nat} (v : Byte) (h : b ≠ a) :
    (m.write u a v).read u b = m.read u b := by
  unfold Memory.read Memory.write
  split
  · rw [Memory.find_erase_other m h]
  · rw [Memory.find_put_other m v h]

theorem Memory.mem_put {m : Memory} {a : Nat} {v : Byte} {c : Host.Cell} (h : c ∈ m.put a v) : c = (a, v) ∨ c ∈ m := by
  induction m with
  | nil => simpa [Memory.put] using h
  | cons d m ih =>
    obtain ⟨k, w⟩ := d
    rw [Memory.put] at h
    split at h
    · simpa using h
    · split at h
      · rcases List.mem_cons.1 h with h | h
        · exact .inl h
        · exact .inr (List.mem_cons_of_mem _ h)
      · rcases List.mem_cons.1 h with h | h
        · exact .inr (h ▸ List.mem_cons_self)
        · rcases ih h with h | h
          · exact .inl h
          · exact .inr (List.mem_cons_of_mem _ h)

theorem Memory.mem_erase {m : Memory} {a : Nat} {c : Host.Cell} (h : c ∈ m.erase a) : c ∈ m := by
  induction m with
  | nil => exact h
  | cons d m ih =>
    obtain ⟨k, w⟩ := d
    rw [Memory.erase] at h
    split at h
    · exact List.mem_cons_of_mem _ h
    · rcases List.mem_cons.1 h with h | h
      · exact h ▸ List.mem_cons_self
      · exact List.mem_cons_of_mem _ (ih h)

theorem Memory.rising_put {m : Memory} (a : Nat) (v : Byte) (hm : m.Rising) : (m.put a v).Rising := by
  induction m with
  | nil => simp [Memory.put, Memory.Rising]
  | cons d m ih =>
    obtain ⟨k, w⟩ := d
    have hm' := hm
    rw [Memory.Rising, List.pairwise_cons] at hm
    rw [Memory.put]
    split
    · rename_i hk
      refine List.pairwise_cons.2 ⟨fun c hc => ?_, hm'⟩
      rcases List.mem_cons.1 hc with rfl | hc
      · exact hk
      · exact Nat.lt_trans hk (hm.1 c hc)
    · split
      · rename_i hk
        exact List.pairwise_cons.2 ⟨fun c hc => hk ▸ hm.1 c hc, hm.2⟩
      · rename_i hlt hne
        refine List.pairwise_cons.2 ⟨fun c hc => ?_, ih hm.2⟩
        rcases Memory.mem_put hc with rfl | hc
        · show k < a
          omega
        · exact hm.1 c hc

theorem Memory.rising_erase {m : Memory} (a : Nat) (hm : m.Rising) : (m.erase a).Rising := by
  induction m with
  | nil => exact hm
  | cons d m ih =>
    obtain ⟨k, w⟩ := d
    rw [Memory.Rising, List.pairwise_cons] at hm
    rw [Memory.erase]
    split
    · exact hm.2
    · exact List.pairwise_cons.2 ⟨fun c hc => hm.1 c (Memory.mem_erase hc), ih hm.2⟩

theorem Memory.wf.rising {u : Nat → Byte} {n : Nat} {m : Memory} (h : m.wf u n) : m.Rising := h.1

@[simp] theorem Memory.wf_nil (u : Nat → Byte) (n : Nat) : Memory.wf u n [] := by
  simp [Memory.wf]

/-- A write inside the store keeps the canonical form. -/
theorem Memory.wf_write {u : Nat → Byte} {n : Nat} {m : Memory} {a : Nat} (v : Byte) (hm : m.wf u n) (ha : a < n) :
    (m.write u a v).wf u n := by
  unfold Memory.write
  split
  · exact ⟨Memory.rising_erase a hm.1, fun c hc => hm.2 c (Memory.mem_erase hc)⟩
  · rename_i hv
    refine ⟨Memory.rising_put a v hm.1, fun c hc => ?_⟩
    rcases Memory.mem_put hc with rfl | hc
    · exact ⟨ha, hv⟩
    · exact hm.2 c hc

/-- Loading bytes inside the store keeps the canonical form. -/
theorem Memory.wf_load {u : Nat → Byte} {n : Nat} (bytes : List Byte) {m : Memory} {a : Nat} (hm : m.wf u n)
    (ha : a + bytes.length ≤ n) : (Memory.load u m a bytes).wf u n := by
  induction bytes generalizing m a with
  | nil => exact hm
  | cons v rest ih =>
    rw [List.length_cons] at ha
    exact ih (Memory.wf_write v hm (by omega)) (by omega)

/-- Equal stores are equal data: two canonical stores that read the same everywhere are the same list. -/
theorem Memory.ext_of_wf {u : Nat → Byte} {n : Nat} {m m' : Memory} (hm : m.wf u n) (hm' : m'.wf u n)
    (h : ∀ a, m.read u a = m'.read u a) : m = m' := by
  induction m generalizing m' with
  | nil =>
    cases m' with
    | nil => rfl
    | cons c m' =>
      obtain ⟨k, v⟩ := c
      have := h k
      simp only [Memory.read, Memory.find_nil, Memory.find_cons, if_true, Option.getD] at this
      exact absurd this.symm (hm'.2 (k, v) (by simp)).2
  | cons c m ih =>
    obtain ⟨k, v⟩ := c
    have hv := (hm.2 (k, v) (by simp)).2
    cases m' with
    | nil =>
      have := h k
      simp only [Memory.read, Memory.find_nil, Memory.find_cons, if_true, Option.getD] at this
      exact absurd this hv
    | cons c' m' =>
      obtain ⟨k', v'⟩ := c'
      have hv' := (hm'.2 (k', v') (by simp)).2
      have r := List.pairwise_cons.1 hm.1
      have r' := List.pairwise_cons.1 hm'.1
      have e := h k
      have e' := h k'
      simp only [Memory.read, Memory.find_cons, if_true] at e e'
      have hk : k = k' := by
        rcases Nat.lt_trichotomy k k' with hlt | heq | hgt
        · rw [if_neg (by omega), Memory.find_eq_none_of_lt (m := m') fun c hc => Nat.lt_trans hlt (r'.1 c hc)] at e
          exact absurd e hv
        · exact heq
        · rw [if_neg (by omega), Memory.find_eq_none_of_lt (m := m) fun c hc => Nat.lt_trans hgt (r.1 c hc)] at e'
          exact absurd e'.symm hv'
      subst hk
      have hvv : v = v' := by simpa using e
      subst hvv
      congr 1
      refine ih ⟨r.2, fun c hc => hm.2 c (by simp [hc])⟩ ⟨r'.2, fun c hc => hm'.2 c (by simp [hc])⟩ fun a => ?_
      by_cases ha : k = a
      · subst ha
        simp only [Memory.read, Memory.find_eq_none_of_lt r.1, Memory.find_eq_none_of_lt r'.1]
      · have := h a
        simpa only [Memory.read, Memory.find_cons, if_neg ha] using this

end Sys2Proof.Machine
end

