-- ==== Sys2Proof/Laws/Bus.lean ====
section
/-! SUPPORT. The Bus: everything one read or one write can change, said once, and what storage reads as afterwards. -/

namespace Sys2Proof.Machine

theorem Bus.drive_ram (b : Bus) (t : Target) : (b.drive t).2.ram = b.ram := by
  rcases t with k | r | r | a
  · rfl
  · cases r <;> rfl
  · cases r <;> rfl
  · rfl

theorem Bus.drive_mapper (b : Bus) (t : Target) : (b.drive t).2.mapper = b.mapper := by
  rcases t with k | r | r | a
  · rfl
  · cases r <;> rfl
  · cases r <;> rfl
  · rfl

theorem Bus.drive_strobe (b : Bus) (t : Target) : (b.drive t).2.strobe = b.strobe := by
  rcases t with k | r | r | a
  · rfl
  · cases r <;> rfl
  · cases r <;> rfl
  · rfl

theorem Bus.drive_dmaRequest (b : Bus) (t : Target) : (b.drive t).2.dmaRequest = b.dmaRequest := by
  rcases t with k | r | r | a
  · rfl
  · cases r <;> rfl
  · cases r <;> rfl
  · rfl

/-- What a read does to the PPU: nothing, or the read of PPUSTATUS, or an access of PPUDATA. -/
theorem Bus.drive_ppu (b : Bus) (t : Target) :
    (b.drive t).2.ppu = b.ppu ∨ (b.drive t).2.ppu = b.ppu.afterStatusRead ∨ (b.drive t).2.ppu = b.ppu.afterDataAccess := by
  rcases t with k | r | r | a
  · exact .inl rfl
  · cases r <;> first | exact .inl rfl | exact .inr (.inl rfl) | exact .inr (.inr rfl)
  · cases r <;> exact .inl rfl
  · exact .inl rfl

/-- What a read does to the APU: nothing, or the read of $4015. -/
theorem Bus.drive_apu (b : Bus) (t : Target) :
    (b.drive t).2.apu = b.apu ∨ (b.drive t).2.apu = b.apu.afterStatusRead := by
  rcases t with k | r | r | a
  · exact .inl rfl
  · cases r <;> exact .inl rfl
  · cases r <;> first | exact .inl rfl | exact .inr rfl
  · exact .inl rfl

@[simp] theorem Bus.read_ram (a : Addr) (b : Bus) : (b.read a).2.ram = b.ram := b.drive_ram _
@[simp] theorem Bus.read_mapper (a : Addr) (b : Bus) : (b.read a).2.mapper = b.mapper := b.drive_mapper _
@[simp] theorem Bus.read_strobe (a : Addr) (b : Bus) : (b.read a).2.strobe = b.strobe := b.drive_strobe _
@[simp] theorem Bus.read_dmaRequest (a : Addr) (b : Bus) : (b.read a).2.dmaRequest = b.dmaRequest := b.drive_dmaRequest _
@[simp] theorem Bus.read_openBus (a : Addr) (b : Bus) : (b.read a).2.openBus = (b.read a).1 := rfl
@[simp] theorem Bus.read_log (a : Addr) (b : Bus) : (b.read a).2.log = ⟨a, .read, (b.read a).1⟩ :: b.log := rfl

theorem Bus.read_ppu (a : Addr) (b : Bus) :
    (b.read a).2.ppu = b.ppu ∨ (b.read a).2.ppu = b.ppu.afterStatusRead ∨ (b.read a).2.ppu = b.ppu.afterDataAccess :=
  b.drive_ppu _

theorem Bus.read_apu (a : Addr) (b : Bus) :
    (b.read a).2.apu = b.apu ∨ (b.read a).2.apu = b.apu.afterStatusRead :=
  b.drive_apu _

@[simp] theorem Bus.read_ppu_oam (a : Addr) (b : Bus) : (b.read a).2.ppu.oam = b.ppu.oam := by
  rcases b.read_ppu a with h | h | h <;> simp [h, PpuState.afterStatusRead, PpuState.afterDataAccess]

@[simp] theorem Bus.read_ppu_oamAddr (a : Addr) (b : Bus) : (b.read a).2.ppu.oamAddr = b.ppu.oamAddr := by
  rcases b.read_ppu a with h | h | h <;> simp [h, PpuState.afterStatusRead, PpuState.afterDataAccess]

@[simp] theorem Bus.read_ppu_scanline (a : Addr) (b : Bus) : (b.read a).2.ppu.scanline = b.ppu.scanline := by
  rcases b.read_ppu a with h | h | h <;> simp [h, PpuState.afterStatusRead, PpuState.afterDataAccess]

@[simp] theorem Bus.read_ppu_dot (a : Addr) (b : Bus) : (b.read a).2.ppu.dot = b.ppu.dot := by
  rcases b.read_ppu a with h | h | h <;> simp [h, PpuState.afterStatusRead, PpuState.afterDataAccess]

@[simp] theorem Bus.read_apu_channels (a : Addr) (b : Bus) : (b.read a).2.apu.channels = b.apu.channels := by
  rcases b.read_apu a with h | h <;> simp [h, ApuState.afterStatusRead]

/-- A read leaves every byte of storage alone. -/
@[simp] theorem Bus.byteAt_read (a c : Addr) (b : Bus) : (b.read a).2.byteAt c = b.byteAt c := by
  unfold Bus.byteAt
  rw [Bus.read_ram, Bus.read_mapper]

/-- A read of storage returns its byte. -/
theorem Bus.read_of_byteAt {a : Addr} {b : Bus} {v : Byte} (h : b.byteAt a = some v) : (b.read a).1 = v := by
  unfold Bus.byteAt at h
  unfold Bus.read
  cases hr : route a <;> simp_all [Bus.drive]

/-- A read of storage changes nothing but open bus and the log. -/
theorem Bus.read_storage {a : Addr} {b : Bus} {v : Byte} (h : b.byteAt a = some v) :
    b.read a = (v, { b with openBus := v, log := ⟨a, .read, v⟩ :: b.log }) := by
  unfold Bus.byteAt at h
  unfold Bus.read
  cases hr : route a <;> simp_all [Bus.drive]

@[simp] theorem Bus.write_openBus (a : Addr) (v : Byte) (b : Bus) : (b.write a v).openBus = v := rfl
@[simp] theorem Bus.write_log (a : Addr) (v : Byte) (b : Bus) : (b.write a v).log = ⟨a, .write, v⟩ :: b.log := rfl

@[simp] theorem Bus.write_mapper (a : Addr) (v : Byte) (b : Bus) : (b.write a v).mapper = b.mapper := by
  unfold Bus.write
  rcases route a with k | r | r | c
  · rfl
  · rfl
  · cases r <;> rfl
  · rfl

/-- Above $1FFF no address reaches RAM (20_memory R58). -/
theorem route_ne_ram {a : Addr} (h : ¬ a.toNat < 0x2000) (k : Nat) : route a ≠ .ram k := by
  unfold route
  rw [if_neg h]
  split
  · simp
  · split <;> simp

theorem Bus.write_ram (a : Addr) (v : Byte) (b : Bus) :
    (b.write a v).ram = if a.toNat < 0x2000 then b.ram.write Config.ramInit (a.toNat % 0x800) v else b.ram := by
  unfold Bus.write
  split
  · rename_i h
    simp [route, h, Bus.deliver]
  · rename_i h
    rcases hk : route a with k | r | r | c
    · exact absurd hk (route_ne_ram h k)
    · rfl
    · cases r <;> rfl
    · rfl

theorem Bus.write_ppu (a : Addr) (v : Byte) (b : Bus) :
    (b.write a v).ppu = b.ppu ∨ ∃ r, (b.write a v).ppu = b.ppu.writeReg r v := by
  unfold Bus.write
  rcases route a with k | r | r | c
  · exact .inl rfl
  · exact .inr ⟨r, rfl⟩
  · cases r <;> exact .inl rfl
  · exact .inl rfl

theorem PpuState.writeReg_position (p : PpuState) (r : PpuReg) (v : Byte) :
    (p.writeReg r v).scanline = p.scanline ∧ (p.writeReg r v).dot = p.dot := by
  cases r <;> try exact ⟨rfl, rfl⟩
  · unfold PpuState.writeReg PpuState.writeScroll
    cases p.toggle <;> exact ⟨rfl, rfl⟩
  · unfold PpuState.writeReg PpuState.writeAddr
    cases p.toggle <;> exact ⟨rfl, rfl⟩

@[simp] theorem Bus.write_ppu_scanline (a : Addr) (v : Byte) (b : Bus) : (b.write a v).ppu.scanline = b.ppu.scanline := by
  rcases b.write_ppu a v with h | ⟨r, h⟩ <;> rw [h]
  exact (b.ppu.writeReg_position r v).1

@[simp] theorem Bus.write_ppu_dot (a : Addr) (v : Byte) (b : Bus) : (b.write a v).ppu.dot = b.ppu.dot := by
  rcases b.write_ppu a v with h | ⟨r, h⟩ <;> rw [h]
  exact (b.ppu.writeReg_position r v).2

/-- A write leaves every byte of storage alone but the RAM byte it reaches. -/
theorem Bus.byteAt_write_other {a c : Addr} (v : Byte) (b : Bus) (h : ¬ sameRamByte a c) :
    (b.write a v).byteAt c = b.byteAt c := by
  unfold Bus.byteAt
  rw [Bus.write_mapper, Bus.write_ram]
  by_cases ha : a.toNat < 0x2000
  · rw [if_pos ha]
    by_cases hc : c.toNat < 0x2000
    · have hne : c.toNat % 0x800 ≠ a.toNat % 0x800 := fun e => h ⟨ha, hc, e.symm⟩
      simp [route, hc, Memory.read_write_other _ _ v hne]
    · rcases hk : route c with k | r | r | d
      · exact absurd hk (route_ne_ram hc k)
      · rfl
      · rfl
      · rfl
  · rw [if_neg ha]

/-- A byte written to RAM is read back at every mirror of its address. -/
theorem Bus.byteAt_write_same {a c : Addr} (v : Byte) {b : Bus} (hb : b.ram.Rising) (h : sameRamByte a c) :
    (b.write a v).byteAt c = some v := by
  obtain ⟨ha, hc, e⟩ := h
  unfold Bus.byteAt
  simp [route, hc, Bus.write_ram, ha, ← e, Memory.read_write_same _ v hb]

end Sys2Proof.Machine
end

