-- ==== Sys2Proof/Laws/Decode.lean ====
section
/-! SUPPORT. The opcode map against the encoder, one row at a time: what the map makes at an opcode byte is encoded with that byte
(30_encoding R81, R84). -/

namespace Sys2Proof

/-- What a form makes is encoded as this opcode byte and the operand bytes. -/
def Form.Encodes (op : Byte) : Form → Prop
  | .one i => encode i = [op]
  | .two make => ∀ b, encode (make b) = [op, b]
  | .three make => ∀ l h, encode (make l h) = [op, l, h]
  | .threeLate make => ∀ l h, encode (make l h) = [op, l, h]

/-- The opcode map's entry encodes to its own opcode byte. -/
def EntryEncodes (n : Nat) : Prop :=
  (opcodeMap (BitVec.ofNat 8 n)).Encodes (BitVec.ofNat 8 n)

theorem entries_row0 (n : Nat) (h : 0 ≤ n) (k : n < 16) : EntryEncodes n := by
  interval_cases n <;> (first | rfl | (intro b; rfl) | (intro l h; rfl))

theorem entries_row1 (n : Nat) (h : 16 ≤ n) (k : n < 32) : EntryEncodes n := by
  interval_cases n <;> (first | rfl | (intro b; rfl) | (intro l h; rfl))

theorem entries_row2 (n : Nat) (h : 32 ≤ n) (k : n < 48) : EntryEncodes n := by
  interval_cases n <;> (first | rfl | (intro b; rfl) | (intro l h; rfl))

theorem entries_row3 (n : Nat) (h : 48 ≤ n) (k : n < 64) : EntryEncodes n := by
  interval_cases n <;> (first | rfl | (intro b; rfl) | (intro l h; rfl))

theorem entries_row4 (n : Nat) (h : 64 ≤ n) (k : n < 80) : EntryEncodes n := by
  interval_cases n <;> (first | rfl | (intro b; rfl) | (intro l h; rfl))

theorem entries_row5 (n : Nat) (h : 80 ≤ n) (k : n < 96) : EntryEncodes n := by
  interval_cases n <;> (first | rfl | (intro b; rfl) | (intro l h; rfl))

theorem entries_row6 (n : Nat) (h : 96 ≤ n) (k : n < 112) : EntryEncodes n := by
  interval_cases n <;> (first | rfl | (intro b; rfl) | (intro l h; rfl))

theorem entries_row7 (n : Nat) (h : 112 ≤ n) (k : n < 128) : EntryEncodes n := by
  interval_cases n <;> (first | rfl | (intro b; rfl) | (intro l h; rfl))

theorem entries_row8 (n : Nat) (h : 128 ≤ n) (k : n < 144) : EntryEncodes n := by
  interval_cases n <;> (first | rfl | (intro b; rfl) | (intro l h; rfl))

theorem entries_row9 (n : Nat) (h : 144 ≤ n) (k : n < 160) : EntryEncodes n := by
  interval_cases n <;> (first | rfl | (intro b; rfl) | (intro l h; rfl))

theorem entries_rowA (n : Nat) (h : 160 ≤ n) (k : n < 176) : EntryEncodes n := by
  interval_cases n <;> (first | rfl | (intro b; rfl) | (intro l h; rfl))

theorem entries_rowB (n : Nat) (h : 176 ≤ n) (k : n < 192) : EntryEncodes n := by
  interval_cases n <;> (first | rfl | (intro b; rfl) | (intro l h; rfl))

theorem entries_rowC (n : Nat) (h : 192 ≤ n) (k : n < 208) : EntryEncodes n := by
  interval_cases n <;> (first | rfl | (intro b; rfl) | (intro l h; rfl))

theorem entries_rowD (n : Nat) (h : 208 ≤ n) (k : n < 224) : EntryEncodes n := by
  interval_cases n <;> (first | rfl | (intro b; rfl) | (intro l h; rfl))

theorem entries_rowE (n : Nat) (h : 224 ≤ n) (k : n < 240) : EntryEncodes n := by
  interval_cases n <;> (first | rfl | (intro b; rfl) | (intro l h; rfl))

theorem entries_rowF (n : Nat) (h : 240 ≤ n) (k : n < 256) : EntryEncodes n := by
  interval_cases n <;> (first | rfl | (intro b; rfl) | (intro l h; rfl))

/-- Every entry of the opcode map. -/
theorem opcodeMap_encodes (op : Byte) : (opcodeMap op).Encodes op := by
  have h : EntryEncodes op.toNat := by
    have := op.isLt
    by_cases h0 : op.toNat < 16
    · exact entries_row0 _ (by omega) h0
    by_cases h1 : op.toNat < 32
    · exact entries_row1 _ (by omega) h1
    by_cases h2 : op.toNat < 48
    · exact entries_row2 _ (by omega) h2
    by_cases h3 : op.toNat < 64
    · exact entries_row3 _ (by omega) h3
    by_cases h4 : op.toNat < 80
    · exact entries_row4 _ (by omega) h4
    by_cases h5 : op.toNat < 96
    · exact entries_row5 _ (by omega) h5
    by_cases h6 : op.toNat < 112
    · exact entries_row6 _ (by omega) h6
    by_cases h7 : op.toNat < 128
    · exact entries_row7 _ (by omega) h7
    by_cases h8 : op.toNat < 144
    · exact entries_row8 _ (by omega) h8
    by_cases h9 : op.toNat < 160
    · exact entries_row9 _ (by omega) h9
    by_cases h10 : op.toNat < 176
    · exact entries_rowA _ (by omega) h10
    by_cases h11 : op.toNat < 192
    · exact entries_rowB _ (by omega) h11
    by_cases h12 : op.toNat < 208
    · exact entries_rowC _ (by omega) h12
    by_cases h13 : op.toNat < 224
    · exact entries_rowD _ (by omega) h13
    by_cases h14 : op.toNat < 240
    · exact entries_rowE _ (by omega) h14
    exact entries_rowF _ (by omega) (by omega)
  rw [EntryEncodes, BitVec.ofNat_toNat, BitVec.setWidth_eq] at h
  exact h

end Sys2Proof
end

