-- ==== Sys2Proof/Laws/State.lean ====
section
/-! SUPPORT. One lemma per field per update, each true by `rfl` and a simp lemma, so that no proof unfolds a record update. -/

namespace Sys2Proof.Machine

@[simp] theorem State.withCpu_cpu (c : CpuState) (s : State) : (s.withCpu c).cpu = c := rfl
@[simp] theorem State.withCpu_bus (c : CpuState) (s : State) : (s.withCpu c).bus = s.bus := rfl
@[simp] theorem State.withCpu_dotFrac (c : CpuState) (s : State) : (s.withCpu c).dotFrac = s.dotFrac := rfl
@[simp] theorem State.withCpu_stepCycles (c : CpuState) (s : State) : (s.withCpu c).stepCycles = s.stepCycles := rfl
@[simp] theorem State.withCpu_params (c : CpuState) (s : State) : (s.withCpu c).params = s.params := rfl
@[simp] theorem State.withBus_cpu (b : Bus) (s : State) : (s.withBus b).cpu = s.cpu := rfl
@[simp] theorem State.withBus_bus (b : Bus) (s : State) : (s.withBus b).bus = b := rfl
@[simp] theorem State.withBus_dotFrac (b : Bus) (s : State) : (s.withBus b).dotFrac = s.dotFrac := rfl
@[simp] theorem State.withBus_stepCycles (b : Bus) (s : State) : (s.withBus b).stepCycles = s.stepCycles := rfl
@[simp] theorem State.withBus_params (b : Bus) (s : State) : (s.withBus b).params = s.params := rfl
@[simp] theorem State.setPc_cpu (a : Addr) (s : State) : (s.setPc a).cpu = { s.cpu with pc := a } := rfl
@[simp] theorem State.setPc_bus (a : Addr) (s : State) : (s.setPc a).bus = s.bus := rfl
@[simp] theorem State.setPc_dotFrac (a : Addr) (s : State) : (s.setPc a).dotFrac = s.dotFrac := rfl
@[simp] theorem State.setPc_stepCycles (a : Addr) (s : State) : (s.setPc a).stepCycles = s.stepCycles := rfl
@[simp] theorem State.setPc_params (a : Addr) (s : State) : (s.setPc a).params = s.params := rfl
@[simp] theorem State.setFlags_cpu (p : Flags) (s : State) : (s.setFlags p).cpu = { s.cpu with p := p } := rfl
@[simp] theorem State.setFlags_bus (p : Flags) (s : State) : (s.setFlags p).bus = s.bus := rfl
@[simp] theorem State.setFlags_dotFrac (p : Flags) (s : State) : (s.setFlags p).dotFrac = s.dotFrac := rfl
@[simp] theorem State.setFlags_stepCycles (p : Flags) (s : State) : (s.setFlags p).stepCycles = s.stepCycles := rfl
@[simp] theorem State.setFlags_params (p : Flags) (s : State) : (s.setFlags p).params = s.params := rfl
@[simp] theorem State.beginStep_cpu (s : State) : s.beginStep.cpu = s.cpu := rfl
@[simp] theorem State.beginStep_bus (s : State) : s.beginStep.bus = { s.bus with log := [], dmaRequest := none } := rfl
@[simp] theorem State.beginStep_dotFrac (s : State) : s.beginStep.dotFrac = s.dotFrac := rfl
@[simp] theorem State.beginStep_stepCycles (s : State) : s.beginStep.stepCycles = s.stepCycles := rfl
@[simp] theorem State.beginStep_params (s : State) : s.beginStep.params = s.params := rfl
@[simp] theorem State.countCycles_cpu (s : State) : s.countCycles.cpu = { s.cpu with cycles := s.cpu.cycles + s.bus.log.length } := rfl
@[simp] theorem State.countCycles_bus (s : State) : s.countCycles.bus = s.bus := rfl
@[simp] theorem State.countCycles_dotFrac (s : State) : s.countCycles.dotFrac = s.dotFrac := rfl
@[simp] theorem State.countCycles_stepCycles (s : State) : s.countCycles.stepCycles = s.bus.log.length := rfl
@[simp] theorem State.countCycles_params (s : State) : s.countCycles.params = s.params := rfl
@[simp] theorem State.ppuTick_cpu (s : State) : s.ppuTick.cpu = 
      { s.cpu with
        nmiPending := s.cpu.nmiPending || ((s.bus.ppu.tick s.params.region).nmiLine && !s.cpu.nmiPrev)
        nmiPrev := (s.bus.ppu.tick s.params.region).nmiLine } := rfl
@[simp] theorem State.ppuTick_bus (s : State) : s.ppuTick.bus = s.bus.ppuTick s.params.region := rfl
@[simp] theorem State.ppuTick_dotFrac (s : State) : s.ppuTick.dotFrac = s.dotFrac := rfl
@[simp] theorem State.ppuTick_stepCycles (s : State) : s.ppuTick.stepCycles = s.stepCycles := rfl
@[simp] theorem State.ppuTick_params (s : State) : s.ppuTick.params = s.params := rfl
@[simp] theorem State.apuTick_cpu (s : State) : s.apuTick.cpu = s.cpu := rfl
@[simp] theorem State.apuTick_bus (s : State) : s.apuTick.bus = { s.bus with apu := s.bus.apu.tick } := rfl
@[simp] theorem State.apuTick_dotFrac (s : State) : s.apuTick.dotFrac = s.dotFrac := rfl
@[simp] theorem State.apuTick_stepCycles (s : State) : s.apuTick.stepCycles = s.stepCycles := rfl
@[simp] theorem State.apuTick_params (s : State) : s.apuTick.params = s.params := rfl

@[simp] theorem Flags.setNZ_c (v : Byte) (p : Flags) : (p.setNZ v).c = p.c := rfl
@[simp] theorem Flags.setNZ_z (v : Byte) (p : Flags) : (p.setNZ v).z = decide (v = 0) := rfl
@[simp] theorem Flags.setNZ_i (v : Byte) (p : Flags) : (p.setNZ v).i = p.i := rfl
@[simp] theorem Flags.setNZ_d (v : Byte) (p : Flags) : (p.setNZ v).d = p.d := rfl
@[simp] theorem Flags.setNZ_v (v : Byte) (p : Flags) : (p.setNZ v).v = p.v := rfl
@[simp] theorem Flags.setNZ_n (v : Byte) (p : Flags) : (p.setNZ v).n = bit v 7 := rfl
@[simp] theorem Flags.addC_c (a m : Byte) (c : Bool) (p : Flags) : (p.addC a m c).c = decide (255 < a.toNat + m.toNat + c.toNat) := rfl
@[simp] theorem Flags.addC_z (a m : Byte) (c : Bool) (p : Flags) : (p.addC a m c).z = decide (addByte a m c = 0) := rfl
@[simp] theorem Flags.addC_i (a m : Byte) (c : Bool) (p : Flags) : (p.addC a m c).i = p.i := rfl
@[simp] theorem Flags.addC_d (a m : Byte) (c : Bool) (p : Flags) : (p.addC a m c).d = p.d := rfl
@[simp] theorem Flags.addC_v (a m : Byte) (c : Bool) (p : Flags) : (p.addC a m c).v = bit ((a ^^^ addByte a m c) &&& (m ^^^ addByte a m c)) 7 := rfl
@[simp] theorem Flags.addC_n (a m : Byte) (c : Bool) (p : Flags) : (p.addC a m c).n = bit (addByte a m c) 7 := rfl
@[simp] theorem Flags.compare_c (r v : Byte) (p : Flags) : (p.compare r v).c = decide (v.toNat ≤ r.toNat) := rfl
@[simp] theorem Flags.compare_z (r v : Byte) (p : Flags) : (p.compare r v).z = decide (r - v = 0) := rfl
@[simp] theorem Flags.compare_i (r v : Byte) (p : Flags) : (p.compare r v).i = p.i := rfl
@[simp] theorem Flags.compare_d (r v : Byte) (p : Flags) : (p.compare r v).d = p.d := rfl
@[simp] theorem Flags.compare_v (r v : Byte) (p : Flags) : (p.compare r v).v = p.v := rfl
@[simp] theorem Flags.compare_n (r v : Byte) (p : Flags) : (p.compare r v).n = bit (r - v) 7 := rfl
@[simp] theorem Flags.bitTest_c (a v : Byte) (p : Flags) : (p.bitTest a v).c = p.c := rfl
@[simp] theorem Flags.bitTest_z (a v : Byte) (p : Flags) : (p.bitTest a v).z = decide (a &&& v = 0) := rfl
@[simp] theorem Flags.bitTest_i (a v : Byte) (p : Flags) : (p.bitTest a v).i = p.i := rfl
@[simp] theorem Flags.bitTest_d (a v : Byte) (p : Flags) : (p.bitTest a v).d = p.d := rfl
@[simp] theorem Flags.bitTest_v (a v : Byte) (p : Flags) : (p.bitTest a v).v = bit v 6 := rfl
@[simp] theorem Flags.bitTest_n (a v : Byte) (p : Flags) : (p.bitTest a v).n = bit v 7 := rfl
@[simp] theorem Flags.arr_c (r : Byte) (p : Flags) : (p.arr r).c = bit r 6 := rfl
@[simp] theorem Flags.arr_z (r : Byte) (p : Flags) : (p.arr r).z = decide (r = 0) := rfl
@[simp] theorem Flags.arr_i (r : Byte) (p : Flags) : (p.arr r).i = p.i := rfl
@[simp] theorem Flags.arr_d (r : Byte) (p : Flags) : (p.arr r).d = p.d := rfl
@[simp] theorem Flags.arr_v (r : Byte) (p : Flags) : (p.arr r).v = (bit r 6 ^^ bit r 5) := rfl
@[simp] theorem Flags.arr_n (r : Byte) (p : Flags) : (p.arr r).n = bit r 7 := rfl
@[simp] theorem Flags.shifted_c (out : Bool) (r : Byte) (p : Flags) : (p.shifted out r).c = out := rfl
@[simp] theorem Flags.shifted_z (out : Bool) (r : Byte) (p : Flags) : (p.shifted out r).z = decide (r = 0) := rfl
@[simp] theorem Flags.shifted_i (out : Bool) (r : Byte) (p : Flags) : (p.shifted out r).i = p.i := rfl
@[simp] theorem Flags.shifted_d (out : Bool) (r : Byte) (p : Flags) : (p.shifted out r).d = p.d := rfl
@[simp] theorem Flags.shifted_v (out : Bool) (r : Byte) (p : Flags) : (p.shifted out r).v = p.v := rfl
@[simp] theorem Flags.shifted_n (out : Bool) (r : Byte) (p : Flags) : (p.shifted out r).n = bit r 7 := rfl
@[simp] theorem Flags.pload_n (v : Byte) : (Flags.pload v).n = bit v 7 := rfl
@[simp] theorem Flags.pload_v (v : Byte) : (Flags.pload v).v = bit v 6 := rfl
@[simp] theorem Flags.pload_d (v : Byte) : (Flags.pload v).d = bit v 3 := rfl
@[simp] theorem Flags.pload_i (v : Byte) : (Flags.pload v).i = bit v 2 := rfl
@[simp] theorem Flags.pload_z (v : Byte) : (Flags.pload v).z = bit v 1 := rfl
@[simp] theorem Flags.pload_c (v : Byte) : (Flags.pload v).c = bit v 0 := rfl

end Sys2Proof.Machine
end

