-- ==== Sys2Proof/Laws/Terms.lean ====
section
/-! SUPPORT. The machine's operations equal the terms of the statements: addresses, flag computations, shifts, the stack, and the cycles of
each addressing mode and access class. Rewriting with these takes a meaning to the form that the statements give it. -/

namespace Sys2Proof.Machine

theorem cell_toNat (n : Nat) : (cell n).toNat = n % 65536 := by
  simp [cell]

theorem u8_toNat (n : Nat) : (u8 n).toNat = n % 256 := by
  simp [u8]

/-- Addresses with the same number modulo 65536 are the same. -/
theorem cell_congr {m n : Nat} (h : m % 65536 = n % 65536) : cell m = cell n := by
  apply BitVec.eq_of_toNat_eq
  rw [cell_toNat, cell_toNat, h]

theorem eq_cell {a : Addr} {n : Nat} (h : a.toNat = n % 65536) : a = cell n := by
  apply BitVec.eq_of_toNat_eq
  rw [cell_toNat, h]

theorem eq_u8 {v : Byte} {n : Nat} (h : v.toNat = n % 256) : v = u8 n := by
  apply BitVec.eq_of_toNat_eq
  rw [u8_toNat, h]

theorem zext_eq (b : Byte) : zext b = cell b.toNat := by
  apply eq_cell
  rw [zext_toNat]
  have := b.isLt
  omega

theorem add_eq (a b : Byte) : a + b = u8 (a.toNat + b.toNat) :=
  eq_u8 (BitVec.toNat_add a b)

theorem succ_eq (a : Byte) : a + 1 = u8 (a.toNat + 1) :=
  eq_u8 (BitVec.toNat_add a 1)

theorem pred_eq (a : Byte) : a - 1 = u8 (a.toNat + 255) := by
  apply eq_u8
  rw [BitVec.toNat_sub]
  show (256 - 1 + a.toNat) % 256 = _
  omega

theorem succ_addr_eq (a : Addr) : a + 1 = cell (a.toNat + 1) :=
  eq_cell (BitVec.toNat_add a 1)

theorem mkAddr_eq (h l : Byte) : mkAddr h l = joined h l := by
  apply eq_cell
  rw [mkAddr_toNat]
  have := h.isLt
  have := l.isLt
  omega

theorem hi_eq (a : Addr) : hi a = highByte a := by
  apply eq_u8
  rw [hi_toNat]
  have := a.isLt
  omega

theorem lo_eq (a : Addr) : lo a = lowByte a := by
  apply eq_u8
  rw [lo_toNat]
  omega

theorem stackAddr_eq (c : CpuState) : c.stackAddr = stackCell c.s := by
  apply eq_cell
  rw [CpuState.stackAddr, mkAddr_toNat]
  have := c.s.isLt
  show 1 * 256 + _ = _
  omega

/-- Bit `k` of a byte is bit `k` of its number. -/
theorem bit_eq (v : Byte) (k : Nat) : bit v k = numBit v k := by
  rw [bit, numBit, BitVec.getLsbD, Nat.testBit, Nat.shiftRight_eq_div_pow, Nat.one_and_eq_mod_two]
  rcases Nat.mod_two_eq_zero_or_one (v.toNat / 2 ^ k) with h | h <;> simp [h]

theorem topBit_eq (v : Byte) : bit v 7 = topBit v :=
  bit_seven v

theorem lowBit_eq (v : Byte) : bit v 0 = lowBit v := by
  rw [bit_eq, numBit, lowBit, Nat.pow_zero, Nat.div_one]

theorem eq_zero_iff (v : Byte) : v = 0 ↔ v.toNat = 0 :=
  ⟨fun h => h ▸ rfl, fun h => BitVec.eq_of_toNat_eq h⟩

theorem setNZ_eq (v : Byte) (p : Flags) : p.setNZ v = nz v p := by
  simp only [Flags.setNZ, nz, bit_seven, eq_zero_iff]

theorem addByte_eq (a m : Byte) (c : Bool) : addByte a m c = sumByte a m c := rfl

/-- The sign of a byte, by its number. -/
theorem toInt_eq (v : Byte) : v.toInt = if 128 ≤ v.toNat then (v.toNat : Int) - 256 else v.toNat := by
  rw [BitVec.toInt_eq_toNat_cond]
  have := v.isLt
  split <;> split <;> omega

/-- Bit 7 of the adder's overflow formula, by the signs of the two bytes and the result (43 R170). -/
theorem overflow_bit (a m r : Byte) :
    bit ((a ^^^ r) &&& (m ^^^ r)) 7 = ((topBit a != topBit r) && (topBit m != topBit r)) := by
  simp only [← topBit_eq, bit, BitVec.getLsbD_and, BitVec.getLsbD_xor]

/-- V of the adder: the bit formula says that the signed sum is out of range (43 R170). -/
theorem overflow_eq (a m : Byte) (c : Bool) :
    bit ((a ^^^ sumByte a m c) &&& (m ^^^ sumByte a m c)) 7 =
      decide (a.toInt + m.toInt + c.toNat < -128 ∨ 127 < a.toInt + m.toInt + c.toNat) := by
  have ha := a.isLt
  have hm := m.isLt
  have hc : c.toNat ≤ 1 := by cases c <;> decide
  rw [overflow_bit]
  simp only [topBit, toInt_eq, sumByte, u8_toNat]
  by_cases h1 : 128 ≤ a.toNat <;> by_cases h2 : 128 ≤ m.toNat <;>
    by_cases h3 : 128 ≤ (a.toNat + m.toNat + c.toNat) % 256 <;> simp only [h1, h2, h3, decide_true, decide_false, if_true, if_false,
      bne_self_eq_false, Bool.true_bne, Bool.false_bne, Bool.and_false, Bool.and_true, Bool.not_false] <;> (first | (symm; apply decide_eq_true; omega) | (symm; apply decide_eq_false; omega))

theorem addC_eq (a m : Byte) (c : Bool) (p : Flags) : p.addC a m c = sumFlags a m c p := by
  simp only [Flags.addC, sumFlags, addByte_eq, overflow_eq, setNZ_eq]

theorem complement_toNat (m : Byte) : (m ^^^ 0xFF).toNat = 255 - m.toNat := by
  rw [show m ^^^ 0xFF = ~~~m from BitVec.xor_allOnes, BitVec.toNat_not]

theorem complement_toInt (m : Byte) : (m ^^^ 0xFF).toInt = -1 - m.toInt := by
  have := m.isLt
  rw [toInt_eq, toInt_eq, complement_toNat]
  split <;> split <;> omega

/-- SBC as a sum with the complement is the difference (43 R172). -/
theorem sum_complement (a m : Byte) (c : Bool) : sumByte a (m ^^^ 0xFF) c = diffByte a m c := by
  apply BitVec.eq_of_toNat_eq
  have := m.isLt
  rw [sumByte, u8_toNat, complement_toNat, diffByte, BitVec.toNat_ofInt]
  omega

theorem sumFlags_complement (a m : Byte) (c : Bool) (p : Flags) : sumFlags a (m ^^^ 0xFF) c p = diffFlags a m c p := by
  have := m.isLt
  rw [sumFlags, diffFlags, sum_complement, complement_toNat, complement_toInt]
  congr 1
  · simp only [decide_eq_decide]
    omega
  · simp only [decide_eq_decide]
    omega

theorem compare_eq (r v : Byte) (p : Flags) : p.compare r v = compareFlags r v p := by
  have hd : r - v = BitVec.ofInt 8 (r.toNat - v.toNat) := by
    apply BitVec.eq_of_toNat_eq
    rw [BitVec.toNat_sub, BitVec.toNat_ofInt]
    have := v.isLt
    omega
  rw [Flags.compare, compareFlags, setNZ_eq, hd]

theorem sub_eq (r v : Byte) : r - v = BitVec.ofInt 8 (r.toNat - v.toNat) := by
  apply BitVec.eq_of_toNat_eq
  rw [BitVec.toNat_sub, BitVec.toNat_ofInt]
  have := v.isLt
  omega

theorem shifted_eq (o : Bool) (r : Byte) (p : Flags) : p.shifted o r = { nz r p with c := o } := by
  rw [Flags.shifted, setNZ_eq]

theorem aslByte_eq (v : Byte) : aslByte v = shiftedLeft false v := by
  apply eq_u8
  rw [aslByte, BitVec.toNat_shiftLeft, Nat.shiftLeft_eq]
  show _ % 256 = (2 * v.toNat + 0) % 256
  omega

theorem lsrByte_eq (v : Byte) : lsrByte v = shiftedRight false v := by
  apply eq_u8
  rw [lsrByte, BitVec.toNat_ushiftRight, Nat.shiftRight_eq_div_pow]
  have := v.isLt
  show _ = (v.toNat / 2 + 128 * 0) % 256
  omega

theorem rolByte_eq (c : Bool) (v : Byte) : rolByte c v = shiftedLeft c v := by
  apply eq_u8
  have hl : (v <<< 1).toNat = 2 * v.toNat % 256 := by
    rw [BitVec.toNat_shiftLeft, Nat.shiftLeft_eq]
    omega
  have hc : (bitAt 0 c).toNat = c.toNat := by cases c <;> rfl
  have hlt : c.toNat < 2 ^ 1 := by cases c <;> decide
  rw [rolByte, BitVec.toNat_or, hl, hc]
  have := Nat.two_pow_add_eq_or_of_lt (i := 1) hlt (v.toNat % 128)
  rw [show 2 * v.toNat % 256 = 2 ^ 1 * (v.toNat % 128) by omega, ← this]
  omega

theorem rorByte_eq (c : Bool) (v : Byte) : rorByte c v = shiftedRight c v := by
  apply eq_u8
  have hl : (v >>> 1).toNat = v.toNat / 2 := by
    rw [BitVec.toNat_ushiftRight, Nat.shiftRight_eq_div_pow]
  have hc : (bitAt 7 c).toNat = 2 ^ 7 * c.toNat := by cases c <;> rfl
  have hv := v.isLt
  have hlt : v.toNat / 2 < 2 ^ 7 := by omega
  rw [rorByte, BitVec.toNat_or, hl, hc, Nat.or_comm, ← Nat.two_pow_add_eq_or_of_lt hlt]
  have : c.toNat ≤ 1 := by cases c <;> decide
  omega

theorem pbyte_eq (b : Bool) (p : Flags) : p.pbyte b = statusImage b p := by
  rcases p with ⟨c, z, i, d, v, n⟩
  cases b <;> cases c <;> cases z <;> cases i <;> cases d <;> cases v <;> cases n <;> rfl

theorem pload_eq (v : Byte) : Flags.pload v = statusLoaded v := by
  simp only [Flags.pload, statusLoaded, bit_eq]

/-- `Pload` undoes `Pbyte`, in the statements' terms. -/
@[simp] theorem statusLoaded_statusImage (b : Bool) (p : Flags) : statusLoaded (statusImage b p) = p := by
  rw [← pload_eq, ← pbyte_eq, Flags.pload_pbyte]

theorem bitTest_eq (a v : Byte) (p : Flags) :
    p.bitTest a v = { p with z := decide ((a &&& v).toNat = 0), n := numBit v 7, v := numBit v 6 } := by
  simp only [Flags.bitTest, bit_eq, eq_zero_iff]

theorem arr_eq (r : Byte) (p : Flags) : p.arr r = { nz r p with c := numBit r 6, v := numBit r 6 != numBit r 5 } := by
  simp only [Flags.arr, bit_eq, setNZ_eq]

theorem push_eq (v : Byte) (s : State) : s.push v = pushed v s := by
  simp only [State.push, pushed, State.write, State.withBus, State.withCpu, stackAddr_eq, pred_eq]

theorem pull_eq (s : State) : s.pull = pulled s := by
  simp only [State.pull, pulled, State.read, State.withBus, State.withCpu, stackAddr_eq, succ_eq]

theorem idle_eq (s : State) : s.idle = { s with bus := idled s } := rfl

/-- Loading PC from a vector (20_memory R64). -/
theorem loadVector_eq (n : Nat) (s : State) :
    s.loadVector (cell n) =
      { s with cpu := { s.cpu with pc := (vectorRead n s.bus).1 }, bus := (vectorRead n s.bus).2 } := by
  have h : cell n + 1 = cell (n + 1) := by
    rw [succ_addr_eq, cell_toNat]
    apply cell_congr
    omega
  simp only [State.loadVector, State.read, State.withBus, State.setPc, State.withCpu, vectorRead, mkAddr_eq, h]

/-! ### Address formation -/

theorem index_ea (h l i : Byte) : mkAddr h l + zext i = cell ((h.toNat * 256 + l.toNat + i.toNat) % 65536) := by
  apply eq_cell
  rw [BitVec.toNat_add, mkAddr_toNat, zext_toNat]
  omega

theorem index_uncorrected (h l i : Byte) : mkAddr h (l + i) = cell (h.toNat * 256 + (l.toNat + i.toNat) % 256) := by
  apply eq_cell
  rw [mkAddr_toNat, BitVec.toNat_add]
  have := h.isLt
  omega

theorem zext_add (p i : Byte) : zext (p + i) = cell ((p.toNat + i.toNat) % 256) := by
  rw [zext_eq, BitVec.toNat_add]

theorem zext_add_add (p i : Byte) : zext (p + i + 1) = cell (((p.toNat + i.toNat) % 256 + 1) % 256) := by
  rw [zext_eq, BitVec.toNat_add, BitVec.toNat_add]
  rfl

theorem zext_succ (p : Byte) : zext (p + 1) = cell ((p.toNat + 1) % 256) :=
  zext_add p 1

/-- What the machine's `Effective` is in the statements' terms. -/
def Formed.effective (f : Formed) (spends : Bool) : Effective :=
  { ea := cell f.ea, uncorrected := cell f.uncorrected, crossed := f.crossed, indexed := spends, baseHigh := u8 f.base }

theorem direct_eq (n : Nat) (b : Bus) : Effective.direct (cell n) = ((Formed.direct n b).effective false) := by
  simp only [Effective.direct, Formed.direct, Formed.effective, hi_eq, highByte, cell_toNat, Effective.mk.injEq, true_and]
  apply eq_u8
  rw [u8_toNat]
  omega

theorem index_eq (h l i : Byte) (b : Bus) :
    Effective.index h l i = ((Formed.index h.toNat l.toNat i.toNat b).effective true) := by
  have : h = u8 h.toNat := eq_u8 (by have := h.isLt; omega)
  simp only [Effective.index, Formed.index, Formed.effective, index_ea, index_uncorrected, ← this]

/-- Address formation, every mode: the address, and the bus cycles before the access class's own (40_addressing R104 to R109). -/
theorem resolve_eq (m : AddrMode) (s : State) :
    s.resolve m = ((formed m s.cpu s.bus).effective m.spends, { s with bus := (formed m s.cpu s.bus).bus }) := by
  cases m with
  | zp p => simp only [State.resolve, formed, AddrMode.spends, zext_eq, direct_eq _ s.bus, Formed.direct]
  | zpx p =>
    simp only [State.resolve, formed, AddrMode.spends, direct_eq _ (s.bus.read (cell p.toNat)).2, zext_eq, BitVec.toNat_add]
    rfl
  | zpy p =>
    simp only [State.resolve, formed, AddrMode.spends, direct_eq _ (s.bus.read (cell p.toNat)).2, zext_eq, BitVec.toNat_add]
    rfl
  | abs l h => simp only [State.resolve, formed, AddrMode.spends, mkAddr_eq, joined, direct_eq _ s.bus, Formed.direct]
  | abx l h => simp only [State.resolve, formed, AddrMode.spends, index_eq _ _ _ s.bus, Formed.index]
  | aby l h => simp only [State.resolve, formed, AddrMode.spends, index_eq _ _ _ s.bus, Formed.index]
  | izx p =>
    simp only [State.resolve, State.readPointer, State.read, State.dummyRead, State.withBus, formed, AddrMode.spends, zext_add,
      zext_eq p, mkAddr_eq, joined, Formed.direct]
    exact Prod.ext (direct_eq _ s.bus) rfl
  | izy p =>
    simp only [State.resolve, State.readPointer, State.read, State.withBus, formed, AddrMode.spends, zext_succ, zext_eq p]
    exact Prod.ext (index_eq _ _ _ _) rfl

/-- Only an indexed mode crosses a page. -/
theorem crossed_spends (m : AddrMode) (c : CpuState) (b : Bus) (h : (formed m c b).crossed = true) : m.spends = true := by
  cases m <;> simp_all [formed, Formed.direct, AddrMode.spends]

/-- The read class (40_addressing R112). -/
theorem load_eq (m : AddrMode) (s : State) :
    s.load m = ((loaded (.mem m) s.cpu s.bus).1, { s with bus := (loaded (.mem m) s.cpu s.bus).2 }) := by
  simp only [State.load, resolve_eq, State.fixupRead, Formed.effective, loaded]
  split <;> rfl

/-- `Operand()` (40_addressing R118). -/
theorem operand_eq (o : Operand) (s : State) :
    s.operand o = ((loaded o s.cpu s.bus).1, { s with bus := (loaded o s.cpu s.bus).2 }) := by
  cases o with
  | imm v => rfl
  | mem m => exact load_eq m s

/-- The write class (40_addressing R112). -/
theorem store_eq (m : AddrMode) (v : Byte) (s : State) : s.store m v = afterStore m v s := by
  simp only [State.store, resolve_eq, State.fixupWrite, Formed.effective, afterStore, stored, reached]
  split <;> rfl

/-- The read-modify-write class (40_addressing R112). -/
theorem modify_eq (m : AddrMode) (f : Byte → Byte) (s : State) :
    s.modify m f = ((modified m f s.cpu s.bus).1, { s with bus := (modified m f s.cpu s.bus).2 }) := by
  simp only [State.modify, resolve_eq, State.fixupWrite, Formed.effective, modified, reached]
  split <;> rfl

/-- The common rule of SHA, SHX, SHY and TAS (47 R267). -/
theorem storeHigh_eq (m : AddrMode) (r : Byte) (s : State) :
    s.storeHigh m r = { s with bus := storedHigh m r s.cpu s.bus } := by
  have hv : ∀ f : Formed, (f.effective m.spends).highMasked r = r &&& u8 (f.base + 1) := by
    intro f
    rw [Effective.highMasked, Formed.effective]
    congr 1
    rw [succ_eq]
    apply eq_u8
    rw [u8_toNat, u8_toNat]
    omega
  have ha : ((formed m s.cpu s.bus).effective m.spends).highAddr r = highTarget m r s.cpu s.bus := by
    rw [Effective.highAddr, hv, highTarget, highValue]
    show (if (formed m s.cpu s.bus).crossed = true then _ else cell (formed m s.cpu s.bus).ea) = _
    split
    · rw [mkAddr_eq, joined, lo_eq, lowByte, u8_toNat, show ((formed m s.cpu s.bus).effective m.spends).ea = cell (formed m s.cpu s.bus).ea from rfl,
        cell_toNat]
      apply cell_congr
      omega
    · rfl
  simp only [State.storeHigh, resolve_eq]
  rw [ha, hv]
  rfl

end Sys2Proof.Machine
end

