-- ==== Sys2Proof/Laws/Ops.lean ====
section
/-! SUPPORT. What bus accesses keep, said once (`Bus.Follows`), and for each named operation: what it keeps, how many accesses it adds to the
log, and which bytes of storage it can change. -/

namespace Sys2Proof.Machine

/-- What every bus access keeps: the cartridge, the PPU's position and counters, the APU's counter, and the canonical form of the
stores; and the log only grows. -/
structure Bus.Follows (b b' : Bus) : Prop where
  mapper : b'.mapper = b.mapper
  scanline : b'.ppu.scanline = b.ppu.scanline
  dot : b'.ppu.dot = b.ppu.dot
  ppuTicks : b'.ppu.ticks = b.ppu.ticks
  apuTicks : b'.apu.ticks = b.apu.ticks
  wf : b.storesWf → b'.storesWf
  log : b.log.length ≤ b'.log.length

theorem Bus.Follows.refl (b : Bus) : b.Follows b :=
  ⟨rfl, rfl, rfl, rfl, rfl, id, Nat.le_refl _⟩

theorem Bus.Follows.trans {b c d : Bus} (h : b.Follows c) (k : c.Follows d) : b.Follows d :=
  ⟨k.mapper.trans h.mapper, k.scanline.trans h.scanline, k.dot.trans h.dot, k.ppuTicks.trans h.ppuTicks,
    k.apuTicks.trans h.apuTicks, k.wf ∘ h.wf, Nat.le_trans h.log k.log⟩

theorem Bus.read_follows (a : Addr) (b : Bus) : b.Follows (b.read a).2 where
  mapper := Bus.read_mapper a b
  scanline := Bus.read_ppu_scanline a b
  dot := Bus.read_ppu_dot a b
  ppuTicks := by rcases b.read_ppu a with h | h | h <;> simp [h, PpuState.afterStatusRead, PpuState.afterDataAccess]
  apuTicks := by rcases b.read_apu a with h | h <;> simp [h, ApuState.afterStatusRead]
  wf h := by
    unfold Bus.storesWf
    rw [Bus.read_ram, Bus.read_mapper, Bus.read_ppu_oam, Bus.read_apu_channels]
    exact h
  log := Nat.le_succ _

/-- The PPU's side of `Bus.write_follows`. -/
theorem PpuState.writeReg_keeps (p : PpuState) (r : PpuReg) (v : Byte) :
    (p.writeReg r v).ticks = p.ticks ∧
      (p.oam.wf Config.oamInit 256 → (p.writeReg r v).oam.wf Config.oamInit 256) := by
  cases r <;> try exact ⟨rfl, id⟩
  · exact ⟨rfl, fun h => Memory.wf_write v h p.oamAddr.isLt⟩
  · unfold PpuState.writeReg PpuState.writeScroll
    cases p.toggle <;> exact ⟨rfl, id⟩
  · unfold PpuState.writeReg PpuState.writeAddr
    cases p.toggle <;> exact ⟨rfl, id⟩

/-- A channel register's address is one of $4000 to $4017. -/
theorem route_channel {a : Addr} {k : Nat} (h : route a = .io (.channel k)) : k < 0x4018 := by
  unfold route at h
  split at h
  · cases h
  · split at h
    · cases h
    · split at h
      · rename_i ha
        simp only [Target.io.injEq] at h
        unfold IoReg.ofAddress at h
        repeat' split at h
        all_goals first | cases h; done | (cases h; exact ha)
      · cases h

theorem route_ram {a : Addr} {k : Nat} (h : route a = .ram k) : a.toNat < 0x2000 ∧ k = a.toNat % 0x800 := by
  by_cases ha : a.toNat < 0x2000
  · rw [route, if_pos ha] at h
    cases h
    exact ⟨ha, rfl⟩
  · exact absurd h (route_ne_ram ha k)

theorem Bus.write_follows (a : Addr) (v : Byte) (b : Bus) : b.Follows (b.write a v) := by
  unfold Bus.write
  rcases hr : route a with k | r | r | c
  · obtain ⟨-, rfl⟩ := route_ram hr
    exact ⟨rfl, rfl, rfl, rfl, rfl, fun h => ⟨Memory.wf_write v h.1 (Nat.mod_lt _ (by decide)), h.2⟩, Nat.le_succ _⟩
  · have hk := b.ppu.writeReg_keeps r v
    have hp := b.ppu.writeReg_position r v
    exact ⟨rfl, hp.1, hp.2, hk.1, rfl, fun h => ⟨h.1, hk.2 h.2.1, h.2.2⟩, Nat.le_succ _⟩
  · cases r with
    | channel k =>
      exact ⟨rfl, rfl, rfl, rfl, rfl, fun h => ⟨h.1, h.2.1, h.2.2.1, Memory.wf_write v h.2.2.2 (route_channel hr)⟩, Nat.le_succ _⟩
    | dmcFlags => exact ⟨rfl, rfl, rfl, rfl, rfl, id, Nat.le_succ _⟩
    | oamDma => exact ⟨rfl, rfl, rfl, rfl, rfl, id, Nat.le_succ _⟩
    | status => exact ⟨rfl, rfl, rfl, rfl, rfl, id, Nat.le_succ _⟩
    | pad1 => exact ⟨rfl, rfl, rfl, rfl, rfl, id, Nat.le_succ _⟩
    | pad2 => exact ⟨rfl, rfl, rfl, rfl, rfl, id, Nat.le_succ _⟩
  · exact ⟨rfl, rfl, rfl, rfl, rfl, id, Nat.le_succ _⟩

/-- A write below $4000 requests no DMA. -/
theorem Bus.write_dmaRequest {a : Addr} (v : Byte) (b : Bus) (h : a.toNat < 0x4000) : (b.write a v).dmaRequest = b.dmaRequest := by
  unfold Bus.write route
  split
  · rfl
  · rfl

theorem stackCell_lt (s : Byte) : (stackCell s).toNat < 0x2000 := by
  rw [stackCell, cell_toNat]
  have := s.isLt
  omega

/-! ### The cycles of modes and classes -/

/-- How many accesses a mode makes before those of the access class (40_addressing R104 to R109). -/
def AddrMode.formCycles : AddrMode → Nat
  | .zp _ => 0
  | .zpx _ => 1
  | .zpy _ => 1
  | .abs _ _ => 0
  | .abx _ _ => 0
  | .aby _ _ => 0
  | .izx _ => 3
  | .izy _ => 2

theorem formed_follows (m : AddrMode) (c : CpuState) (b : Bus) : b.Follows (formed m c b).bus := by
  cases m with
  | zp _ => exact .refl b
  | zpx _ => exact b.read_follows _
  | zpy _ => exact b.read_follows _
  | abs _ _ => exact .refl b
  | abx _ _ => exact .refl b
  | aby _ _ => exact .refl b
  | izx _ => exact ((b.read_follows _).trans (Bus.read_follows _ _)).trans (Bus.read_follows _ _)
  | izy _ => exact (b.read_follows _).trans (Bus.read_follows _ _)

theorem formed_log (m : AddrMode) (c : CpuState) (b : Bus) :
    (formed m c b).bus.log.length = b.log.length + m.formCycles := by
  cases m <;> simp [formed, Formed.direct, Formed.index, AddrMode.formCycles]

theorem formed_ram (m : AddrMode) (c : CpuState) (b : Bus) : (formed m c b).bus.ram = b.ram := by
  cases m <;> simp [formed, Formed.direct, Formed.index]

theorem formed_dmaRequest (m : AddrMode) (c : CpuState) (b : Bus) : (formed m c b).bus.dmaRequest = b.dmaRequest := by
  cases m <;> simp [formed, Formed.direct, Formed.index]

theorem formed_byteAt (m : AddrMode) (c : CpuState) (b : Bus) (a : Addr) : (formed m c b).bus.byteAt a = b.byteAt a := by
  cases m <;> simp [formed, Formed.direct, Formed.index]

theorem loaded_follows (o : Operand) (c : CpuState) (b : Bus) : b.Follows (loaded o c b).2 := by
  cases o with
  | imm _ => exact .refl b
  | mem m =>
    refine (formed_follows m c b).trans ?_
    unfold loaded
    dsimp only
    cases (formed m c b).crossed
    · exact Bus.read_follows _ _
    · exact (Bus.read_follows _ _).trans (Bus.read_follows _ _)

theorem loaded_log (m : AddrMode) (c : CpuState) (b : Bus) :
    (loaded (.mem m) c b).2.log.length = b.log.length + m.formCycles + (formed m c b).crossed.toNat + 1 := by
  unfold loaded
  cases h : (formed m c b).crossed <;> simp [h, formed_log]

theorem loaded_byteAt (o : Operand) (c : CpuState) (b : Bus) (a : Addr) : (loaded o c b).2.byteAt a = b.byteAt a := by
  cases o with
  | imm _ => rfl
  | mem m =>
    unfold loaded
    cases h : (formed m c b).crossed <;> simp [h, formed_byteAt]

theorem loaded_dmaRequest (o : Operand) (c : CpuState) (b : Bus) : (loaded o c b).2.dmaRequest = b.dmaRequest := by
  cases o with
  | imm _ => rfl
  | mem m =>
    unfold loaded
    cases h : (formed m c b).crossed <;> simp [h, formed_dmaRequest]

theorem reached_follows (m : AddrMode) (c : CpuState) (b : Bus) : b.Follows (reached m c b) := by
  refine (formed_follows m c b).trans ?_
  unfold reached
  split
  · exact Bus.read_follows _ _
  · exact .refl _

theorem reached_log (m : AddrMode) (c : CpuState) (b : Bus) :
    (reached m c b).log.length = b.log.length + m.formCycles + m.spends.toNat := by
  unfold reached
  cases h : m.spends <;> simp [formed_log]

theorem reached_byteAt (m : AddrMode) (c : CpuState) (b : Bus) (a : Addr) : (reached m c b).byteAt a = b.byteAt a := by
  unfold reached
  cases h : m.spends <;> simp [formed_byteAt]

theorem stored_follows (m : AddrMode) (v : Byte) (c : CpuState) (b : Bus) : b.Follows (stored m v c b) :=
  (reached_follows m c b).trans (Bus.write_follows _ _ _)

theorem stored_log (m : AddrMode) (v : Byte) (c : CpuState) (b : Bus) :
    (stored m v c b).log.length = b.log.length + m.formCycles + m.spends.toNat + 1 := by
  simp [stored, reached_log]

/-- A store changes no byte of storage but the RAM byte its address reaches. -/
theorem stored_byteAt (m : AddrMode) (v : Byte) (c : CpuState) (b : Bus) (a : Addr)
    (h : ¬ sameRamByte (cell (formed m c b).ea) a) : (stored m v c b).byteAt a = b.byteAt a := by
  rw [stored, Bus.byteAt_write_other v _ h, reached_byteAt]

theorem modified_follows (m : AddrMode) (f : Byte → Byte) (c : CpuState) (b : Bus) : b.Follows (modified m f c b).2 :=
  (((reached_follows m c b).trans (Bus.read_follows _ _)).trans (Bus.write_follows _ _ _)).trans (Bus.write_follows _ _ _)

theorem modified_log (m : AddrMode) (f : Byte → Byte) (c : CpuState) (b : Bus) :
    (modified m f c b).2.log.length = b.log.length + m.formCycles + m.spends.toNat + 3 := by
  simp [modified, reached_log]

/-- A read-modify-write changes no byte of storage but the RAM byte its address reaches. -/
theorem modified_byteAt (m : AddrMode) (f : Byte → Byte) (c : CpuState) (b : Bus) (a : Addr)
    (h : ¬ sameRamByte (cell (formed m c b).ea) a) : (modified m f c b).2.byteAt a = b.byteAt a := by
  rw [modified]
  dsimp only
  rw [Bus.byteAt_write_other _ _ h, Bus.byteAt_write_other _ _ h, Bus.byteAt_read, reached_byteAt]

theorem storedHigh_follows (m : AddrMode) (r : Byte) (c : CpuState) (b : Bus) : b.Follows (storedHigh m r c b) :=
  ((formed_follows m c b).trans (Bus.read_follows _ _)).trans (Bus.write_follows _ _ _)

theorem storedHigh_log (m : AddrMode) (r : Byte) (c : CpuState) (b : Bus) :
    (storedHigh m r c b).log.length = b.log.length + m.formCycles + 2 := by
  simp [storedHigh, formed_log]

/-- The stores of R267 change no byte of storage but the RAM byte their address reaches. -/
theorem storedHigh_byteAt (m : AddrMode) (r : Byte) (c : CpuState) (b : Bus) (a : Addr)
    (h : ¬ sameRamByte (highTarget m r c b) a) : (storedHigh m r c b).byteAt a = b.byteAt a := by
  rw [storedHigh, Bus.byteAt_write_other _ _ h, Bus.byteAt_read, formed_byteAt]

/-! ### The whole state -/

/-- What an instruction's meaning keeps of the state, whatever the instruction. -/
structure State.Follows (s t : State) : Prop where
  bus : s.bus.Follows t.bus
  params : t.params = s.params
  dotFrac : t.dotFrac = s.dotFrac
  nmiPending : t.cpu.nmiPending = s.cpu.nmiPending
  nmiPrev : t.cpu.nmiPrev = s.cpu.nmiPrev
  resetPending : t.cpu.resetPending = s.cpu.resetPending
  cycles : t.cpu.cycles = s.cpu.cycles

theorem State.Follows.refl (s : State) : s.Follows s :=
  ⟨.refl _, rfl, rfl, rfl, rfl, rfl, rfl⟩

theorem State.Follows.trans {s t u : State} (h : s.Follows t) (k : t.Follows u) : s.Follows u :=
  ⟨h.bus.trans k.bus, k.params.trans h.params, k.dotFrac.trans h.dotFrac, k.nmiPending.trans h.nmiPending,
    k.nmiPrev.trans h.nmiPrev, k.resetPending.trans h.resetPending, k.cycles.trans h.cycles⟩

/-- A change of the Bus by accesses only. -/
theorem State.follows_bus (s : State) {b : Bus} (h : s.bus.Follows b) : s.Follows { s with bus := b } :=
  ⟨h, rfl, rfl, rfl, rfl, rfl, rfl⟩

theorem State.read_follows (a : Addr) (s : State) : s.Follows (s.read a).2 :=
  s.follows_bus (Bus.read_follows a s.bus)

theorem State.write_follows (a : Addr) (v : Byte) (s : State) : s.Follows (s.write a v) :=
  s.follows_bus (Bus.write_follows a v s.bus)

/-- A change of the CPU that keeps what instructions keep. -/
theorem State.withCpu_follows {c : CpuState} {s : State} (h1 : c.nmiPending = s.cpu.nmiPending) (h2 : c.nmiPrev = s.cpu.nmiPrev)
    (h3 : c.resetPending = s.cpu.resetPending) (h4 : c.cycles = s.cpu.cycles) : s.Follows (s.withCpu c) :=
  ⟨.refl _, rfl, rfl, h1, h2, h3, h4⟩

theorem State.setPc_follows (a : Addr) (s : State) : s.Follows (s.setPc a) :=
  ⟨.refl _, rfl, rfl, rfl, rfl, rfl, rfl⟩

theorem State.setFlags_follows (p : Flags) (s : State) : s.Follows (s.setFlags p) :=
  ⟨.refl _, rfl, rfl, rfl, rfl, rfl, rfl⟩

theorem State.fetchByte_follows (s : State) : s.Follows s.fetchByte.2 :=
  (s.read_follows _).trans (State.setPc_follows _ _)

theorem State.push_follows (v : Byte) (s : State) : s.Follows (s.push v) :=
  (s.write_follows _ v).trans ⟨.refl _, rfl, rfl, rfl, rfl, rfl, rfl⟩

theorem State.pull_follows (s : State) : s.Follows s.pull.2 :=
  State.Follows.trans (t := s.withCpu { s.cpu with s := s.cpu.s + 1 }) ⟨.refl _, rfl, rfl, rfl, rfl, rfl, rfl⟩
    (State.read_follows _ _)

theorem State.pushAddr_follows (a : Addr) (s : State) : s.Follows (s.pushAddr a) :=
  (s.push_follows _).trans (State.push_follows _ _)

theorem State.pullAddr_follows (s : State) : s.Follows s.pullAddr.2 :=
  s.pull_follows.trans (State.pull_follows _)

theorem State.loadVector_follows (a : Addr) (s : State) : s.Follows (s.loadVector a) :=
  ((s.read_follows a).trans (State.read_follows _ _)).trans (State.setPc_follows _ _)

theorem State.enterInterrupt_follows (b : Bool) (vector : Addr) (s : State) : s.Follows (s.enterInterrupt b vector) := by
  unfold State.enterInterrupt
  refine State.Follows.trans ?_ (State.withCpu_follows rfl rfl rfl rfl)
  refine State.Follows.trans ?_ (State.loadVector_follows vector _)
  refine State.Follows.trans ?_ (State.setFlags_follows _ _)
  exact (s.pushAddr_follows _).trans (State.push_follows _ _)

theorem State.leaveInterrupt_follows (s : State) : s.Follows s.leaveInterrupt := by
  unfold State.leaveInterrupt
  refine State.Follows.trans ?_ (State.withCpu_follows rfl rfl rfl rfl)
  refine State.Follows.trans ?_ (State.setPc_follows _ _)
  refine State.Follows.trans ?_ (State.pullAddr_follows _)
  refine State.Follows.trans ?_ (State.setFlags_follows _ _)
  exact (s.read_follows _).trans (State.pull_follows _)

theorem State.operand_follows (o : Operand) (s : State) : s.Follows (s.operand o).2 := by
  rw [operand_eq]
  exact s.follows_bus (loaded_follows o _ _)

theorem State.store_follows (m : AddrMode) (v : Byte) (s : State) : s.Follows (s.store m v) := by
  rw [store_eq]
  exact s.follows_bus (stored_follows m v _ _)

theorem State.modify_follows (m : AddrMode) (f : Byte → Byte) (s : State) : s.Follows (s.modify m f).2 := by
  rw [modify_eq]
  exact s.follows_bus (modified_follows m f _ _)

theorem State.storeHigh_follows (m : AddrMode) (r : Byte) (s : State) : s.Follows (s.storeHigh m r) := by
  rw [storeHigh_eq]
  exact s.follows_bus (storedHigh_follows m r _ _)

/-! ### The stack and storage -/

theorem pushed_byteAt (v : Byte) (s : State) (a : Addr) (h : ¬ sameRamByte (stackCell s.cpu.s) a) :
    (pushed v s).bus.byteAt a = s.bus.byteAt a :=
  Bus.byteAt_write_other v s.bus h

theorem pulled_byteAt (s : State) (a : Addr) : (pulled s).2.bus.byteAt a = s.bus.byteAt a :=
  Bus.byteAt_read _ a s.bus

/-- Stack slots are the same RAM byte only if they have the same S. -/
theorem stackCell_same {s r : Byte} : sameRamByte (stackCell s) (stackCell r) ↔ s = r := by
  constructor
  · intro h
    have := h.2.2
    rw [stackCell, stackCell, cell_toNat, cell_toNat] at this
    have hs := s.isLt
    have hr := r.isLt
    apply BitVec.eq_of_toNat_eq
    omega
  · rintro rfl
    exact ⟨stackCell_lt s, stackCell_lt s, rfl⟩

/-- A push puts its byte in its slot. -/
theorem pushed_slot (v : Byte) (s : State) (h : s.bus.ram.Rising) : (pushed v s).bus.byteAt (stackCell s.cpu.s) = some v :=
  Bus.byteAt_write_same v h (stackCell_same.2 rfl)

/-- A push keeps the order of RAM's entries. -/
theorem pushed_rising (v : Byte) (s : State) (h : s.bus.ram.Rising) : (pushed v s).bus.ram.Rising := by
  show (s.bus.write _ v).ram.Rising
  rw [Bus.write_ram, if_pos (stackCell_lt _)]
  unfold Memory.write
  split
  · exact Memory.rising_erase _ h
  · exact Memory.rising_put _ _ h

end Sys2Proof.Machine
end

