-- ==== Sys2Proof/Laws/Meaning.lean ====
section
/-! SUPPORT. Each shared meaning in the statements' terms: what it does to the registers and which accesses it makes, said once per mnemonic. -/

namespace Sys2Proof.Machine

/-! ### The read class -/

theorem ldaOp_eq (o : Operand) (s : State) : ldaOp o s = .next (afterLoad o s fun v c => { c with a := v, p := nz v c.p }) := by
  simp only [ldaOp, operand_eq, setNZ_eq]
  rfl

theorem ldxOp_eq (o : Operand) (s : State) : ldxOp o s = .next (afterLoad o s fun v c => { c with x := v, p := nz v c.p }) := by
  simp only [ldxOp, operand_eq, setNZ_eq]
  rfl

theorem ldyOp_eq (o : Operand) (s : State) : ldyOp o s = .next (afterLoad o s fun v c => { c with y := v, p := nz v c.p }) := by
  simp only [ldyOp, operand_eq, setNZ_eq]
  rfl

/-- The adder on the CPU record, as a sum. -/
theorem adcByte_eq (m : Byte) (c : CpuState) :
    c.adcByte m = { c with a := sumByte c.a m c.p.c, p := sumFlags c.a m c.p.c c.p } := by
  simp only [CpuState.adcByte, addByte_eq, addC_eq]

/-- The adder on the complemented operand, as a difference. -/
theorem adcByte_complement (m : Byte) (c : CpuState) :
    c.adcByte (m ^^^ 0xFF) = { c with a := diffByte c.a m c.p.c, p := diffFlags c.a m c.p.c c.p } := by
  rw [adcByte_eq, sum_complement, sumFlags_complement]

theorem adcOp_eq (o : Operand) (s : State) :
    adcOp o s = .next (afterLoad o s fun v c => { c with a := sumByte c.a v c.p.c, p := sumFlags c.a v c.p.c c.p }) := by
  simp only [adcOp, operand_eq, adcByte_eq]
  rfl

theorem sbcOp_eq (o : Operand) (s : State) :
    sbcOp o s = .next (afterLoad o s fun v c => { c with a := diffByte c.a v c.p.c, p := diffFlags c.a v c.p.c c.p }) := by
  simp only [sbcOp, operand_eq, adcByte_complement]
  rfl

theorem usbcOp_eq (o : Operand) (s : State) :
    usbcOp o s = .next (afterLoad o s fun v c => { c with a := diffByte c.a v c.p.c, p := diffFlags c.a v c.p.c c.p }) :=
  sbcOp_eq o s

theorem andOp_eq (o : Operand) (s : State) :
    andOp o s = .next (afterLoad o s fun v c => { c with a := c.a &&& v, p := nz (c.a &&& v) c.p }) := by
  simp only [andOp, operand_eq, setNZ_eq]
  rfl

theorem oraOp_eq (o : Operand) (s : State) :
    oraOp o s = .next (afterLoad o s fun v c => { c with a := c.a ||| v, p := nz (c.a ||| v) c.p }) := by
  simp only [oraOp, operand_eq, setNZ_eq]
  rfl

theorem eorOp_eq (o : Operand) (s : State) :
    eorOp o s = .next (afterLoad o s fun v c => { c with a := c.a ^^^ v, p := nz (c.a ^^^ v) c.p }) := by
  simp only [eorOp, operand_eq, setNZ_eq]
  rfl

theorem bitOp_eq (o : Operand) (s : State) :
    bitOp o s = .next (afterLoad o s fun v c =>
      { c with p := { c.p with z := decide ((c.a &&& v).toNat = 0), n := numBit v 7, v := numBit v 6 } }) := by
  simp only [bitOp, operand_eq, bitTest_eq]
  rfl

theorem cmpOp_eq (o : Operand) (s : State) : cmpOp o s = .next (afterLoad o s fun v c => { c with p := compareFlags c.a v c.p }) := by
  simp only [cmpOp, operand_eq, compare_eq]
  rfl

theorem cpxOp_eq (o : Operand) (s : State) : cpxOp o s = .next (afterLoad o s fun v c => { c with p := compareFlags c.x v c.p }) := by
  simp only [cpxOp, operand_eq, compare_eq]
  rfl

theorem cpyOp_eq (o : Operand) (s : State) : cpyOp o s = .next (afterLoad o s fun v c => { c with p := compareFlags c.y v c.p }) := by
  simp only [cpyOp, operand_eq, compare_eq]
  rfl

theorem laxOp_eq (o : Operand) (s : State) :
    laxOp o s = .next (afterLoad o s fun v c => { c with a := v, x := v, p := nz v c.p }) := by
  simp only [laxOp, operand_eq, setNZ_eq]
  rfl

theorem lasOp_eq (o : Operand) (s : State) :
    lasOp o s = .next (afterLoad o s fun v c => { c with a := v &&& c.s, x := v &&& c.s, s := v &&& c.s, p := nz (v &&& c.s) c.p }) := by
  simp only [lasOp, operand_eq, setNZ_eq]
  rfl

theorem ancOp_eq (o : Operand) (s : State) :
    ancOp o s = .next (afterLoad o s fun v c => { c with a := c.a &&& v, p := { nz (c.a &&& v) c.p with c := topBit (c.a &&& v) } }) := by
  simp only [ancOp, operand_eq, shifted_eq, topBit_eq]
  rfl

theorem alrOp_eq (o : Operand) (s : State) :
    alrOp o s = .next (afterLoad o s fun v c =>
      { c with
        a := shiftedRight false (c.a &&& v)
        p := { nz (shiftedRight false (c.a &&& v)) c.p with c := lowBit (c.a &&& v) } }) := by
  simp only [alrOp, operand_eq, shifted_eq, lowBit_eq, lsrByte_eq]
  rfl

theorem arrOp_eq (o : Operand) (s : State) :
    arrOp o s = .next (afterLoad o s fun v c =>
      let r := shiftedRight c.p.c (c.a &&& v)
      { c with a := r, p := { nz r c.p with c := numBit r 6, v := numBit r 6 != numBit r 5 } }) := by
  simp only [arrOp, operand_eq, arr_eq, rorByte_eq]
  rfl

theorem sbxOp_eq (o : Operand) (s : State) :
    sbxOp o s = .next (afterLoad o s fun v c =>
      { c with x := BitVec.ofInt 8 ((c.a &&& c.x).toNat - v.toNat), p := compareFlags (c.a &&& c.x) v c.p }) := by
  simp only [sbxOp, operand_eq, compare_eq, sub_eq]
  rfl

theorem aneOp_eq (o : Operand) (s : State) :
    aneOp o s = .next (afterLoad o s fun v c =>
      { c with a := (c.a ||| s.params.magicAne) &&& c.x &&& v, p := nz ((c.a ||| s.params.magicAne) &&& c.x &&& v) c.p }) := by
  simp only [aneOp, operand_eq, setNZ_eq]
  rfl

theorem lxaOp_eq (o : Operand) (s : State) :
    lxaOp o s = .next (afterLoad o s fun v c =>
      { c with
        a := (c.a ||| s.params.magicLxa) &&& v
        x := (c.a ||| s.params.magicLxa) &&& v
        p := nz ((c.a ||| s.params.magicLxa) &&& v) c.p }) := by
  simp only [lxaOp, operand_eq, setNZ_eq]
  rfl

theorem nopOp_eq (o : Operand) (s : State) : nopOp o s = .next (afterLoad o s fun _ c => c) := by
  simp only [nopOp, operand_eq]
  rfl

/-! ### The write class -/

theorem staOp_eq (m : AddrMode) (s : State) : staOp m s = .next (afterStore m s.cpu.a s) := by
  rw [staOp, store_eq]

theorem stxOp_eq (m : AddrMode) (s : State) : stxOp m s = .next (afterStore m s.cpu.x s) := by
  rw [stxOp, store_eq]

theorem styOp_eq (m : AddrMode) (s : State) : styOp m s = .next (afterStore m s.cpu.y s) := by
  rw [styOp, store_eq]

theorem saxOp_eq (m : AddrMode) (s : State) : saxOp m s = .next (afterStore m (s.cpu.a &&& s.cpu.x) s) := by
  rw [saxOp, store_eq]

theorem shaOp_eq (m : AddrMode) (s : State) :
    shaOp m s = .next { s with bus := storedHigh m (s.cpu.a &&& s.cpu.x) s.cpu s.bus } := by
  rw [shaOp, storeHigh_eq]

theorem shxOp_eq (m : AddrMode) (s : State) : shxOp m s = .next { s with bus := storedHigh m s.cpu.x s.cpu s.bus } := by
  rw [shxOp, storeHigh_eq]

theorem shyOp_eq (m : AddrMode) (s : State) : shyOp m s = .next { s with bus := storedHigh m s.cpu.y s.cpu s.bus } := by
  rw [shyOp, storeHigh_eq]

/-- No addressing mode reads S. -/
theorem storedHigh_withS (m : AddrMode) (c : CpuState) (b : Bus) (r v : Byte) :
    storedHigh m v { c with s := r } b = storedHigh m v c b := by
  cases m <;> rfl

theorem tasOp_eq (m : AddrMode) (s : State) :
    tasOp m s = .next
      { s with
        cpu := { s.cpu with s := s.cpu.a &&& s.cpu.x }
        bus := storedHigh m (s.cpu.a &&& s.cpu.x) s.cpu s.bus } := by
  simp only [tasOp, storeHigh_eq, State.withCpu, storedHigh_withS]

/-! ### The read-modify-write class -/

theorem aslByte_fun : aslByte = shiftedLeft false := funext aslByte_eq
theorem lsrByte_fun : lsrByte = shiftedRight false := funext lsrByte_eq
theorem rolByte_fun (c : Bool) : rolByte c = shiftedLeft c := funext (rolByte_eq c)
theorem rorByte_fun (c : Bool) : rorByte c = shiftedRight c := funext (rorByte_eq c)

theorem incOp_eq (m : AddrMode) (s : State) :
    incOp m s = .next (afterModify m (fun v => u8 (v.toNat + 1)) s fun v c => { c with p := nz (u8 (v.toNat + 1)) c.p }) := by
  simp only [incOp, modify_eq, setNZ_eq, succ_eq]
  rfl

theorem decOp_eq (m : AddrMode) (s : State) :
    decOp m s = .next (afterModify m (fun v => u8 (v.toNat + 255)) s fun v c => { c with p := nz (u8 (v.toNat + 255)) c.p }) := by
  simp only [decOp, modify_eq, setNZ_eq, pred_eq]
  rfl

theorem aslOp_eq (m : AddrMode) (s : State) :
    aslOp m s = .next (afterModify m (shiftedLeft false) s fun v c =>
      { c with p := { nz (shiftedLeft false v) c.p with c := topBit v } }) := by
  simp only [aslOp, aslByte_fun, modify_eq, shifted_eq, topBit_eq]
  rfl

theorem lsrOp_eq (m : AddrMode) (s : State) :
    lsrOp m s = .next (afterModify m (shiftedRight false) s fun v c =>
      { c with p := { nz (shiftedRight false v) c.p with c := lowBit v } }) := by
  simp only [lsrOp, lsrByte_fun, modify_eq, shifted_eq, lowBit_eq]
  rfl

theorem rolOp_eq (m : AddrMode) (s : State) :
    rolOp m s = .next (afterModify m (shiftedLeft s.cpu.p.c) s fun v c =>
      { c with p := { nz (shiftedLeft s.cpu.p.c v) c.p with c := topBit v } }) := by
  simp only [rolOp, rolByte_fun, modify_eq, shifted_eq, topBit_eq]
  rfl

theorem rorOp_eq (m : AddrMode) (s : State) :
    rorOp m s = .next (afterModify m (shiftedRight s.cpu.p.c) s fun v c =>
      { c with p := { nz (shiftedRight s.cpu.p.c v) c.p with c := lowBit v } }) := by
  simp only [rorOp, rorByte_fun, modify_eq, shifted_eq, lowBit_eq]
  rfl

theorem sloOp_eq (m : AddrMode) (s : State) :
    sloOp m s = .next (afterModify m (shiftedLeft false) s fun v c =>
      { c with a := c.a ||| shiftedLeft false v, p := { nz (c.a ||| shiftedLeft false v) c.p with c := topBit v } }) := by
  simp only [sloOp, aslByte_fun, modify_eq, shifted_eq, topBit_eq]
  rfl

theorem rlaOp_eq (m : AddrMode) (s : State) :
    rlaOp m s = .next (afterModify m (shiftedLeft s.cpu.p.c) s fun v c =>
      { c with
        a := c.a &&& shiftedLeft s.cpu.p.c v
        p := { nz (c.a &&& shiftedLeft s.cpu.p.c v) c.p with c := topBit v } }) := by
  simp only [rlaOp, rolByte_fun, modify_eq, shifted_eq, topBit_eq]
  rfl

theorem sreOp_eq (m : AddrMode) (s : State) :
    sreOp m s = .next (afterModify m (shiftedRight false) s fun v c =>
      { c with a := c.a ^^^ shiftedRight false v, p := { nz (c.a ^^^ shiftedRight false v) c.p with c := lowBit v } }) := by
  simp only [sreOp, lsrByte_fun, modify_eq, shifted_eq, lowBit_eq]
  rfl

/-- The sum's flags depend on no flag that it writes. -/
theorem sumFlags_withC (a m : Byte) (c d : Bool) (p : Flags) : sumFlags a m c { p with c := d } = sumFlags a m c p := rfl

theorem rraOp_eq (m : AddrMode) (s : State) :
    rraOp m s = .next (afterModify m (shiftedRight s.cpu.p.c) s fun v c =>
      { c with
        a := sumByte c.a (shiftedRight s.cpu.p.c v) (lowBit v)
        p := sumFlags c.a (shiftedRight s.cpu.p.c v) (lowBit v) c.p }) := by
  simp only [rraOp, rorByte_fun, modify_eq, adcByte_eq, lowBit_eq]
  rfl

theorem iscOp_eq (m : AddrMode) (s : State) :
    iscOp m s = .next (afterModify m (fun v => u8 (v.toNat + 1)) s fun v c =>
      { c with a := diffByte c.a (u8 (v.toNat + 1)) c.p.c, p := diffFlags c.a (u8 (v.toNat + 1)) c.p.c c.p }) := by
  simp only [iscOp, modify_eq, adcByte_complement, succ_eq]
  rfl

theorem dcpOp_eq (m : AddrMode) (s : State) :
    dcpOp m s = .next (afterModify m (fun v => u8 (v.toNat + 255)) s fun v c =>
      { c with p := compareFlags c.a (u8 (v.toNat + 255)) c.p }) := by
  simp only [dcpOp, modify_eq, compare_eq, pred_eq]
  rfl

/-! ### Branches, interrupts and returns -/

/-- What an interrupt entry saves, changes and loads (60_exceptions R309, R310). -/
theorem enterInterrupt_eq (b : Bool) (n : Nat) (s : State) :
    s.enterInterrupt b (cell n) =
      let saved := savedFrame s.cpu.pc (statusImage b s.cpu.p) s
      let target := vectorRead n saved.bus
      { saved with
        cpu := { saved.cpu with pc := target.1, p := { s.cpu.p with i := true }, iPoll := true, pollSuppress := true }
        bus := target.2 } := by
  simp only [State.enterInterrupt, State.pushAddr, push_eq, pbyte_eq, hi_eq, lo_eq, loadVector_eq, savedFrame, pushed,
    State.setFlags, State.withCpu]

/-- What a return from interrupt restores (45 R224). -/
theorem leaveInterrupt_eq (s : State) :
    s.leaveInterrupt =
      let image := pulled { s with bus := (s.bus.read (stackCell s.cpu.s)).2 }
      let low := pulled image.2
      let high := pulled low.2
      { high.2 with
        cpu := { high.2.cpu with pc := joined high.1 low.1, p := statusLoaded image.1, iPoll := (statusLoaded image.1).i } } := by
  simp only [State.leaveInterrupt, State.pullAddr, pull_eq, pload_eq, mkAddr_eq, stackAddr_eq]
  rfl

end Sys2Proof.Machine
end

