-- ==== Sys2Proof/Laws/Exec.lean ====
section
/-! SUPPORT. Every instruction's meaning answers a next state, and what all of them keep (`State.Follows`). -/

namespace Sys2Proof.Machine

theorem State.idle_follows (s : State) : s.Follows s.idle :=
  s.read_follows _

theorem branch_follows (taken : Bool) (off : Byte) (s : State) : s.Follows (branch taken off s) := by
  unfold branch
  split
  · refine State.Follows.trans ?_ (State.setPc_follows _ _)
    split
    · exact s.read_follows _
    · exact (s.read_follows _).trans (State.read_follows _ _)
  · exact .refl s

theorem tasOp_follows (m : AddrMode) (s : State) : ∃ t, tasOp m s = .next t ∧ s.Follows t := by
  refine ⟨_, rfl, State.Follows.trans ?_ (State.storeHigh_follows _ _ _)⟩
  exact State.withCpu_follows rfl rfl rfl rfl

theorem pha_follows (s : State) : ∃ t, execPha s = .next t ∧ s.Follows t := by
  refine ⟨_, rfl, State.Follows.trans ?_ (State.push_follows _ _)⟩
  exact s.read_follows _

theorem php_follows (s : State) : ∃ t, execPhp s = .next t ∧ s.Follows t := by
  refine ⟨_, rfl, State.Follows.trans ?_ (State.push_follows _ _)⟩
  exact s.read_follows _

/-- The cycles of a pull instruction (42_stack R161). -/
theorem pulls_follow (s : State) : s.Follows ((s.idle.dummyRead s.idle.cpu.stackAddr).pull).2 := by
  refine State.Follows.trans ?_ (State.pull_follows _)
  exact (s.read_follows _).trans (State.read_follows _ _)

theorem pla_follows (s : State) : ∃ t, execPla s = .next t ∧ s.Follows t := by
  refine ⟨_, rfl, State.Follows.trans ?_ (State.withCpu_follows rfl rfl rfl rfl)⟩
  exact pulls_follow s

theorem plp_follows (s : State) : ∃ t, execPlp s = .next t ∧ s.Follows t := by
  refine ⟨_, rfl, State.Follows.trans ?_ (State.withCpu_follows rfl rfl rfl rfl)⟩
  exact pulls_follow s

theorem jmpInd_follows (l h : Byte) (s : State) : ∃ t, execJmpInd l h s = .next t ∧ s.Follows t := by
  refine ⟨_, rfl, State.Follows.trans ?_ (State.setPc_follows _ _)⟩
  exact (s.read_follows _).trans (State.read_follows _ _)

theorem jsr_follows (l : Byte) (s : State) : ∃ t, execJsrAbs l s = .next t ∧ s.Follows t := by
  refine ⟨_, rfl, State.Follows.trans ?_ (State.setPc_follows _ _)⟩
  refine State.Follows.trans ?_ (State.read_follows _ _)
  exact (s.read_follows _).trans (State.pushAddr_follows _ _)

theorem rts_follows (s : State) : ∃ t, execRts s = .next t ∧ s.Follows t := by
  refine ⟨_, rfl, State.Follows.trans ?_ (State.setPc_follows _ _)⟩
  refine State.Follows.trans ?_ (State.read_follows _ _)
  refine State.Follows.trans ?_ (State.setPc_follows _ _)
  refine State.Follows.trans ?_ (State.pullAddr_follows _)
  exact (s.read_follows _).trans (State.read_follows _ _)

theorem brk_follows (s : State) : ∃ t, execBrk s = .next t ∧ s.Follows t :=
  ⟨_, rfl, s.fetchByte_follows.trans (State.enterInterrupt_follows _ _ _)⟩

theorem rti_follows (s : State) : ∃ t, execRti s = .next t ∧ s.Follows t :=
  ⟨_, rfl, (s.read_follows _).trans (State.leaveInterrupt_follows _)⟩

theorem ldaOp_follows (o : Operand) (s : State) : ∃ t, ldaOp o s = .next t ∧ s.Follows t :=
  ⟨_, rfl, State.Follows.trans (s.operand_follows o) (State.withCpu_follows rfl rfl rfl rfl)⟩

theorem ldxOp_follows (o : Operand) (s : State) : ∃ t, ldxOp o s = .next t ∧ s.Follows t :=
  ⟨_, rfl, State.Follows.trans (s.operand_follows o) (State.withCpu_follows rfl rfl rfl rfl)⟩

theorem ldyOp_follows (o : Operand) (s : State) : ∃ t, ldyOp o s = .next t ∧ s.Follows t :=
  ⟨_, rfl, State.Follows.trans (s.operand_follows o) (State.withCpu_follows rfl rfl rfl rfl)⟩

theorem adcOp_follows (o : Operand) (s : State) : ∃ t, adcOp o s = .next t ∧ s.Follows t :=
  ⟨_, rfl, State.Follows.trans (s.operand_follows o) (State.withCpu_follows rfl rfl rfl rfl)⟩

theorem sbcOp_follows (o : Operand) (s : State) : ∃ t, sbcOp o s = .next t ∧ s.Follows t :=
  ⟨_, rfl, State.Follows.trans (s.operand_follows o) (State.withCpu_follows rfl rfl rfl rfl)⟩

theorem usbcOp_follows (o : Operand) (s : State) : ∃ t, usbcOp o s = .next t ∧ s.Follows t :=
  ⟨_, rfl, State.Follows.trans (s.operand_follows o) (State.withCpu_follows rfl rfl rfl rfl)⟩

theorem andOp_follows (o : Operand) (s : State) : ∃ t, andOp o s = .next t ∧ s.Follows t :=
  ⟨_, rfl, State.Follows.trans (s.operand_follows o) (State.withCpu_follows rfl rfl rfl rfl)⟩

theorem oraOp_follows (o : Operand) (s : State) : ∃ t, oraOp o s = .next t ∧ s.Follows t :=
  ⟨_, rfl, State.Follows.trans (s.operand_follows o) (State.withCpu_follows rfl rfl rfl rfl)⟩

theorem eorOp_follows (o : Operand) (s : State) : ∃ t, eorOp o s = .next t ∧ s.Follows t :=
  ⟨_, rfl, State.Follows.trans (s.operand_follows o) (State.withCpu_follows rfl rfl rfl rfl)⟩

theorem bitOp_follows (o : Operand) (s : State) : ∃ t, bitOp o s = .next t ∧ s.Follows t :=
  ⟨_, rfl, State.Follows.trans (s.operand_follows o) (State.withCpu_follows rfl rfl rfl rfl)⟩

theorem cmpOp_follows (o : Operand) (s : State) : ∃ t, cmpOp o s = .next t ∧ s.Follows t :=
  ⟨_, rfl, State.Follows.trans (s.operand_follows o) (State.withCpu_follows rfl rfl rfl rfl)⟩

theorem cpxOp_follows (o : Operand) (s : State) : ∃ t, cpxOp o s = .next t ∧ s.Follows t :=
  ⟨_, rfl, State.Follows.trans (s.operand_follows o) (State.withCpu_follows rfl rfl rfl rfl)⟩

theorem cpyOp_follows (o : Operand) (s : State) : ∃ t, cpyOp o s = .next t ∧ s.Follows t :=
  ⟨_, rfl, State.Follows.trans (s.operand_follows o) (State.withCpu_follows rfl rfl rfl rfl)⟩

theorem laxOp_follows (o : Operand) (s : State) : ∃ t, laxOp o s = .next t ∧ s.Follows t :=
  ⟨_, rfl, State.Follows.trans (s.operand_follows o) (State.withCpu_follows rfl rfl rfl rfl)⟩

theorem lasOp_follows (o : Operand) (s : State) : ∃ t, lasOp o s = .next t ∧ s.Follows t :=
  ⟨_, rfl, State.Follows.trans (s.operand_follows o) (State.withCpu_follows rfl rfl rfl rfl)⟩

theorem ancOp_follows (o : Operand) (s : State) : ∃ t, ancOp o s = .next t ∧ s.Follows t :=
  ⟨_, rfl, State.Follows.trans (s.operand_follows o) (State.withCpu_follows rfl rfl rfl rfl)⟩

theorem alrOp_follows (o : Operand) (s : State) : ∃ t, alrOp o s = .next t ∧ s.Follows t :=
  ⟨_, rfl, State.Follows.trans (s.operand_follows o) (State.withCpu_follows rfl rfl rfl rfl)⟩

theorem arrOp_follows (o : Operand) (s : State) : ∃ t, arrOp o s = .next t ∧ s.Follows t :=
  ⟨_, rfl, State.Follows.trans (s.operand_follows o) (State.withCpu_follows rfl rfl rfl rfl)⟩

theorem sbxOp_follows (o : Operand) (s : State) : ∃ t, sbxOp o s = .next t ∧ s.Follows t :=
  ⟨_, rfl, State.Follows.trans (s.operand_follows o) (State.withCpu_follows rfl rfl rfl rfl)⟩

theorem aneOp_follows (o : Operand) (s : State) : ∃ t, aneOp o s = .next t ∧ s.Follows t :=
  ⟨_, rfl, State.Follows.trans (s.operand_follows o) (State.withCpu_follows rfl rfl rfl rfl)⟩

theorem lxaOp_follows (o : Operand) (s : State) : ∃ t, lxaOp o s = .next t ∧ s.Follows t :=
  ⟨_, rfl, State.Follows.trans (s.operand_follows o) (State.withCpu_follows rfl rfl rfl rfl)⟩

theorem incOp_follows (m : AddrMode) (s : State) : ∃ t, incOp m s = .next t ∧ s.Follows t :=
  ⟨_, rfl, State.Follows.trans (s.modify_follows m _) (State.withCpu_follows rfl rfl rfl rfl)⟩

theorem decOp_follows (m : AddrMode) (s : State) : ∃ t, decOp m s = .next t ∧ s.Follows t :=
  ⟨_, rfl, State.Follows.trans (s.modify_follows m _) (State.withCpu_follows rfl rfl rfl rfl)⟩

theorem aslOp_follows (m : AddrMode) (s : State) : ∃ t, aslOp m s = .next t ∧ s.Follows t :=
  ⟨_, rfl, State.Follows.trans (s.modify_follows m _) (State.withCpu_follows rfl rfl rfl rfl)⟩

theorem lsrOp_follows (m : AddrMode) (s : State) : ∃ t, lsrOp m s = .next t ∧ s.Follows t :=
  ⟨_, rfl, State.Follows.trans (s.modify_follows m _) (State.withCpu_follows rfl rfl rfl rfl)⟩

theorem rolOp_follows (m : AddrMode) (s : State) : ∃ t, rolOp m s = .next t ∧ s.Follows t :=
  ⟨_, rfl, State.Follows.trans (s.modify_follows m _) (State.withCpu_follows rfl rfl rfl rfl)⟩

theorem rorOp_follows (m : AddrMode) (s : State) : ∃ t, rorOp m s = .next t ∧ s.Follows t :=
  ⟨_, rfl, State.Follows.trans (s.modify_follows m _) (State.withCpu_follows rfl rfl rfl rfl)⟩

theorem sloOp_follows (m : AddrMode) (s : State) : ∃ t, sloOp m s = .next t ∧ s.Follows t :=
  ⟨_, rfl, State.Follows.trans (s.modify_follows m _) (State.withCpu_follows rfl rfl rfl rfl)⟩

theorem rlaOp_follows (m : AddrMode) (s : State) : ∃ t, rlaOp m s = .next t ∧ s.Follows t :=
  ⟨_, rfl, State.Follows.trans (s.modify_follows m _) (State.withCpu_follows rfl rfl rfl rfl)⟩

theorem sreOp_follows (m : AddrMode) (s : State) : ∃ t, sreOp m s = .next t ∧ s.Follows t :=
  ⟨_, rfl, State.Follows.trans (s.modify_follows m _) (State.withCpu_follows rfl rfl rfl rfl)⟩

theorem rraOp_follows (m : AddrMode) (s : State) : ∃ t, rraOp m s = .next t ∧ s.Follows t :=
  ⟨_, rfl, State.Follows.trans (s.modify_follows m _) (State.withCpu_follows rfl rfl rfl rfl)⟩

theorem iscOp_follows (m : AddrMode) (s : State) : ∃ t, iscOp m s = .next t ∧ s.Follows t :=
  ⟨_, rfl, State.Follows.trans (s.modify_follows m _) (State.withCpu_follows rfl rfl rfl rfl)⟩

theorem dcpOp_follows (m : AddrMode) (s : State) : ∃ t, dcpOp m s = .next t ∧ s.Follows t :=
  ⟨_, rfl, State.Follows.trans (s.modify_follows m _) (State.withCpu_follows rfl rfl rfl rfl)⟩

theorem tax_follows (s : State) : ∃ t, execTax s = .next t ∧ s.Follows t :=
  ⟨_, rfl, State.Follows.trans s.idle_follows (State.withCpu_follows rfl rfl rfl rfl)⟩

theorem tay_follows (s : State) : ∃ t, execTay s = .next t ∧ s.Follows t :=
  ⟨_, rfl, State.Follows.trans s.idle_follows (State.withCpu_follows rfl rfl rfl rfl)⟩

theorem txa_follows (s : State) : ∃ t, execTxa s = .next t ∧ s.Follows t :=
  ⟨_, rfl, State.Follows.trans s.idle_follows (State.withCpu_follows rfl rfl rfl rfl)⟩

theorem tya_follows (s : State) : ∃ t, execTya s = .next t ∧ s.Follows t :=
  ⟨_, rfl, State.Follows.trans s.idle_follows (State.withCpu_follows rfl rfl rfl rfl)⟩

theorem tsx_follows (s : State) : ∃ t, execTsx s = .next t ∧ s.Follows t :=
  ⟨_, rfl, State.Follows.trans s.idle_follows (State.withCpu_follows rfl rfl rfl rfl)⟩

theorem txs_follows (s : State) : ∃ t, execTxs s = .next t ∧ s.Follows t :=
  ⟨_, rfl, State.Follows.trans s.idle_follows (State.withCpu_follows rfl rfl rfl rfl)⟩

theorem inx_follows (s : State) : ∃ t, execInx s = .next t ∧ s.Follows t :=
  ⟨_, rfl, State.Follows.trans s.idle_follows (State.withCpu_follows rfl rfl rfl rfl)⟩

theorem iny_follows (s : State) : ∃ t, execIny s = .next t ∧ s.Follows t :=
  ⟨_, rfl, State.Follows.trans s.idle_follows (State.withCpu_follows rfl rfl rfl rfl)⟩

theorem dex_follows (s : State) : ∃ t, execDex s = .next t ∧ s.Follows t :=
  ⟨_, rfl, State.Follows.trans s.idle_follows (State.withCpu_follows rfl rfl rfl rfl)⟩

theorem dey_follows (s : State) : ∃ t, execDey s = .next t ∧ s.Follows t :=
  ⟨_, rfl, State.Follows.trans s.idle_follows (State.withCpu_follows rfl rfl rfl rfl)⟩

theorem aslAcc_follows (s : State) : ∃ t, execAslAcc s = .next t ∧ s.Follows t :=
  ⟨_, rfl, State.Follows.trans s.idle_follows (State.withCpu_follows rfl rfl rfl rfl)⟩

theorem lsrAcc_follows (s : State) : ∃ t, execLsrAcc s = .next t ∧ s.Follows t :=
  ⟨_, rfl, State.Follows.trans s.idle_follows (State.withCpu_follows rfl rfl rfl rfl)⟩

theorem rolAcc_follows (s : State) : ∃ t, execRolAcc s = .next t ∧ s.Follows t :=
  ⟨_, rfl, State.Follows.trans s.idle_follows (State.withCpu_follows rfl rfl rfl rfl)⟩

theorem rorAcc_follows (s : State) : ∃ t, execRorAcc s = .next t ∧ s.Follows t :=
  ⟨_, rfl, State.Follows.trans s.idle_follows (State.withCpu_follows rfl rfl rfl rfl)⟩

theorem clc_follows (s : State) : ∃ t, execClc s = .next t ∧ s.Follows t :=
  ⟨_, rfl, State.Follows.trans s.idle_follows (State.withCpu_follows rfl rfl rfl rfl)⟩

theorem sec_follows (s : State) : ∃ t, execSec s = .next t ∧ s.Follows t :=
  ⟨_, rfl, State.Follows.trans s.idle_follows (State.withCpu_follows rfl rfl rfl rfl)⟩

theorem cli_follows (s : State) : ∃ t, execCli s = .next t ∧ s.Follows t :=
  ⟨_, rfl, State.Follows.trans s.idle_follows (State.withCpu_follows rfl rfl rfl rfl)⟩

theorem sei_follows (s : State) : ∃ t, execSei s = .next t ∧ s.Follows t :=
  ⟨_, rfl, State.Follows.trans s.idle_follows (State.withCpu_follows rfl rfl rfl rfl)⟩

theorem cld_follows (s : State) : ∃ t, execCld s = .next t ∧ s.Follows t :=
  ⟨_, rfl, State.Follows.trans s.idle_follows (State.withCpu_follows rfl rfl rfl rfl)⟩

theorem sed_follows (s : State) : ∃ t, execSed s = .next t ∧ s.Follows t :=
  ⟨_, rfl, State.Follows.trans s.idle_follows (State.withCpu_follows rfl rfl rfl rfl)⟩

theorem clv_follows (s : State) : ∃ t, execClv s = .next t ∧ s.Follows t :=
  ⟨_, rfl, State.Follows.trans s.idle_follows (State.withCpu_follows rfl rfl rfl rfl)⟩

/-- Every instruction completes, and keeps what `State.Follows` says. -/
theorem exec_follows (i : Instr) (s : State) : ∃ t, exec i s = .next t ∧ s.Follows t := by
  cases i
  case ldaIzx | ldaZp | ldaImm | ldaAbs | ldaIzy | ldaZpx | ldaAby | ldaAbx =>
    exact ldaOp_follows _ s
  case ldxImm | ldxZp | ldxAbs | ldxZpy | ldxAby =>
    exact ldxOp_follows _ s
  case ldyImm | ldyZp | ldyAbs | ldyZpx | ldyAbx =>
    exact ldyOp_follows _ s
  case adcIzx | adcZp | adcImm | adcAbs | adcIzy | adcZpx | adcAby | adcAbx =>
    exact adcOp_follows _ s
  case sbcIzx | sbcZp | sbcImm | sbcAbs | sbcIzy | sbcZpx | sbcAby | sbcAbx =>
    exact sbcOp_follows _ s
  case usbcImm =>
    exact usbcOp_follows _ s
  case andIzx | andZp | andImm | andAbs | andIzy | andZpx | andAby | andAbx =>
    exact andOp_follows _ s
  case oraIzx | oraZp | oraImm | oraAbs | oraIzy | oraZpx | oraAby | oraAbx =>
    exact oraOp_follows _ s
  case eorIzx | eorZp | eorImm | eorAbs | eorIzy | eorZpx | eorAby | eorAbx =>
    exact eorOp_follows _ s
  case bitZp | bitAbs =>
    exact bitOp_follows _ s
  case cmpIzx | cmpZp | cmpImm | cmpAbs | cmpIzy | cmpZpx | cmpAby | cmpAbx =>
    exact cmpOp_follows _ s
  case cpxImm | cpxZp | cpxAbs =>
    exact cpxOp_follows _ s
  case cpyImm | cpyZp | cpyAbs =>
    exact cpyOp_follows _ s
  case laxIzx | laxZp | laxAbs | laxIzy | laxZpy | laxAby =>
    exact laxOp_follows _ s
  case lasAby =>
    exact lasOp_follows _ s
  case anc0B | anc2B =>
    exact ancOp_follows _ s
  case alrImm =>
    exact alrOp_follows _ s
  case arrImm =>
    exact arrOp_follows _ s
  case sbxImm =>
    exact sbxOp_follows _ s
  case aneImm =>
    exact aneOp_follows _ s
  case lxaImm =>
    exact lxaOp_follows _ s
  case incZp | incAbs | incZpx | incAbx =>
    exact incOp_follows _ s
  case decZp | decAbs | decZpx | decAbx =>
    exact decOp_follows _ s
  case aslZp | aslAbs | aslZpx | aslAbx =>
    exact aslOp_follows _ s
  case lsrZp | lsrAbs | lsrZpx | lsrAbx =>
    exact lsrOp_follows _ s
  case rolZp | rolAbs | rolZpx | rolAbx =>
    exact rolOp_follows _ s
  case rorZp | rorAbs | rorZpx | rorAbx =>
    exact rorOp_follows _ s
  case sloIzx | sloZp | sloAbs | sloIzy | sloZpx | sloAby | sloAbx =>
    exact sloOp_follows _ s
  case rlaIzx | rlaZp | rlaAbs | rlaIzy | rlaZpx | rlaAby | rlaAbx =>
    exact rlaOp_follows _ s
  case sreIzx | sreZp | sreAbs | sreIzy | sreZpx | sreAby | sreAbx =>
    exact sreOp_follows _ s
  case rraIzx | rraZp | rraAbs | rraIzy | rraZpx | rraAby | rraAbx =>
    exact rraOp_follows _ s
  case iscIzx | iscZp | iscAbs | iscIzy | iscZpx | iscAby | iscAbx =>
    exact iscOp_follows _ s
  case dcpIzx | dcpZp | dcpAbs | dcpIzy | dcpZpx | dcpAby | dcpAbx =>
    exact dcpOp_follows _ s
  case tax =>
    exact tax_follows s
  case tay =>
    exact tay_follows s
  case txa =>
    exact txa_follows s
  case tya =>
    exact tya_follows s
  case tsx =>
    exact tsx_follows s
  case txs =>
    exact txs_follows s
  case inx =>
    exact inx_follows s
  case iny =>
    exact iny_follows s
  case dex =>
    exact dex_follows s
  case dey =>
    exact dey_follows s
  case aslAcc =>
    exact aslAcc_follows s
  case lsrAcc =>
    exact lsrAcc_follows s
  case rolAcc =>
    exact rolAcc_follows s
  case rorAcc =>
    exact rorAcc_follows s
  case clc =>
    exact clc_follows s
  case sec =>
    exact sec_follows s
  case cli =>
    exact cli_follows s
  case sei =>
    exact sei_follows s
  case cld =>
    exact cld_follows s
  case sed =>
    exact sed_follows s
  case clv =>
    exact clv_follows s
  case nopZp04 | nopAbs0C | nopZpx14 | nopAbx1C | nopZpx34 | nopAbx3C | nopZp44 | nopZpx54 | nopAbx5C | nopZp64 | nopZpx74 |
      nopAbx7C | nopImm80 | nopImm82 | nopImm89 | nopImmC2 | nopZpxD4 | nopAbxDC | nopImmE2 | nopZpxF4 | nopAbxFC =>
    exact ⟨_, rfl, s.operand_follows _⟩
  case staIzx | saxIzx | styZp | staZp | stxZp | saxZp | styAbs | staAbs | stxAbs | saxAbs | staIzy | styZpx | staZpx | stxZpy |
      saxZpy | staAby | staAbx =>
    exact ⟨_, rfl, s.store_follows _ _⟩
  case shaIzy | shyAbx | shxAby | shaAby =>
    exact ⟨_, rfl, s.storeHigh_follows _ _⟩
  case tasAby =>
    exact tasOp_follows _ s
  case nopImp1A | nopImp3A | nopImp5A | nopImp7A | nopImpDA | nop | nopImpFA =>
    exact ⟨_, rfl, s.read_follows _⟩
  case jam02 | jam12 | jam22 | jam32 | jam42 | jam52 | jam62 | jam72 | jam92 | jamB2 | jamD2 | jamF2 =>
    exact ⟨_, rfl, State.withCpu_follows rfl rfl rfl rfl⟩
  case bpl | bmi | bvc | bvs | bcc | bcs | bne | beq =>
    exact ⟨_, rfl, branch_follows _ _ s⟩
  case pha =>
    exact pha_follows s
  case php =>
    exact php_follows s
  case pla =>
    exact pla_follows s
  case plp =>
    exact plp_follows s
  case jmpAbs =>
    exact ⟨_, rfl, s.setPc_follows _⟩
  case jmpInd =>
    exact jmpInd_follows _ _ s
  case jsrAbs =>
    exact jsr_follows _ s
  case rts =>
    exact rts_follows s
  case brk =>
    exact brk_follows s
  case rti =>
    exact rti_follows s

/-- What a completed instruction keeps. -/
theorem follows_of_exec {i : Instr} {s t : State} (h : exec i s = .next t) : s.Follows t := by
  obtain ⟨u, hu, hf⟩ := exec_follows i s
  rw [hu] at h
  cases h
  exact hf

theorem branch_pollSuppress (taken : Bool) (off : Byte) (s : State) : (branch taken off s).cpu.pollSuppress = s.cpu.pollSuppress := by
  unfold branch
  cases taken
  · rfl
  · dsimp only
    simp only [if_true]
    split <;> rfl

/-- BRK is the one instruction whose meaning writes `poll_suppress` (10_state R42). -/
theorem exec_pollSuppress {i : Instr} {s t : State} (h : exec i s = .next t) (hb : i ≠ .brk) :
    t.cpu.pollSuppress = s.cpu.pollSuppress := by
  cases i
  case brk => exact absurd rfl hb
  all_goals first
    | (cases h; rfl)
    | (cases h; exact branch_pollSuppress _ _ _)
    | (cases h; simp only [operand_eq, State.withCpu] <;> rfl)

end Sys2Proof.Machine
end

