-- ==== Sys2Proof/Laws/PerInstr.lean ====
section
/-! SUPPORT. One statement per constructor of `Instr`: the opcode map's entry for its opcode byte makes it of its operand bytes
(30_encoding R81, R84). -/

namespace Sys2Proof

/-- A form makes an instruction of exactly these operand bytes. -/
def Form.Makes (operands : List Byte) (i : Instr) : Form → Prop
  | .one j => operands = [] ∧ j = i
  | .two make => ∃ b, operands = [b] ∧ make b = i
  | .three make => ∃ l h, operands = [l, h] ∧ make l h = i
  | .threeLate make => ∃ l h, operands = [l, h] ∧ make l h = i

namespace Laws.FormOfOpcode

/-- The instruction's words: an opcode byte whose map entry makes it of the operand bytes that follow. -/
def Statement (i : Instr) : Prop :=
  ∃ op operands, encode i = op :: operands ∧ (opcodeMap op).Makes operands i

theorem brk : Statement (.brk) := ⟨_, _, rfl, rfl, rfl⟩
theorem oraIzx (b : Byte) : Statement (.oraIzx b) := ⟨_, _, rfl, _, rfl, rfl⟩
theorem jam02 : Statement (.jam02) := ⟨_, _, rfl, rfl, rfl⟩
theorem sloIzx (b : Byte) : Statement (.sloIzx b) := ⟨_, _, rfl, _, rfl, rfl⟩
theorem nopZp04 (b : Byte) : Statement (.nopZp04 b) := ⟨_, _, rfl, _, rfl, rfl⟩
theorem oraZp (b : Byte) : Statement (.oraZp b) := ⟨_, _, rfl, _, rfl, rfl⟩
theorem aslZp (b : Byte) : Statement (.aslZp b) := ⟨_, _, rfl, _, rfl, rfl⟩
theorem sloZp (b : Byte) : Statement (.sloZp b) := ⟨_, _, rfl, _, rfl, rfl⟩
theorem php : Statement (.php) := ⟨_, _, rfl, rfl, rfl⟩
theorem oraImm (b : Byte) : Statement (.oraImm b) := ⟨_, _, rfl, _, rfl, rfl⟩
theorem aslAcc : Statement (.aslAcc) := ⟨_, _, rfl, rfl, rfl⟩
theorem anc0B (b : Byte) : Statement (.anc0B b) := ⟨_, _, rfl, _, rfl, rfl⟩
theorem nopAbs0C (lo hi : Byte) : Statement (.nopAbs0C lo hi) := ⟨_, _, rfl, _, _, rfl, rfl⟩
theorem oraAbs (lo hi : Byte) : Statement (.oraAbs lo hi) := ⟨_, _, rfl, _, _, rfl, rfl⟩
theorem aslAbs (lo hi : Byte) : Statement (.aslAbs lo hi) := ⟨_, _, rfl, _, _, rfl, rfl⟩
theorem sloAbs (lo hi : Byte) : Statement (.sloAbs lo hi) := ⟨_, _, rfl, _, _, rfl, rfl⟩
theorem bpl (off : Byte) : Statement (.bpl off) := ⟨_, _, rfl, _, rfl, rfl⟩
theorem oraIzy (b : Byte) : Statement (.oraIzy b) := ⟨_, _, rfl, _, rfl, rfl⟩
theorem jam12 : Statement (.jam12) := ⟨_, _, rfl, rfl, rfl⟩
theorem sloIzy (b : Byte) : Statement (.sloIzy b) := ⟨_, _, rfl, _, rfl, rfl⟩
theorem nopZpx14 (b : Byte) : Statement (.nopZpx14 b) := ⟨_, _, rfl, _, rfl, rfl⟩
theorem oraZpx (b : Byte) : Statement (.oraZpx b) := ⟨_, _, rfl, _, rfl, rfl⟩
theorem aslZpx (b : Byte) : Statement (.aslZpx b) := ⟨_, _, rfl, _, rfl, rfl⟩
theorem sloZpx (b : Byte) : Statement (.sloZpx b) := ⟨_, _, rfl, _, rfl, rfl⟩
theorem clc : Statement (.clc) := ⟨_, _, rfl, rfl, rfl⟩
theorem oraAby (lo hi : Byte) : Statement (.oraAby lo hi) := ⟨_, _, rfl, _, _, rfl, rfl⟩
theorem nopImp1A : Statement (.nopImp1A) := ⟨_, _, rfl, rfl, rfl⟩
theorem sloAby (lo hi : Byte) : Statement (.sloAby lo hi) := ⟨_, _, rfl, _, _, rfl, rfl⟩
theorem nopAbx1C (lo hi : Byte) : Statement (.nopAbx1C lo hi) := ⟨_, _, rfl, _, _, rfl, rfl⟩
theorem oraAbx (lo hi : Byte) : Statement (.oraAbx lo hi) := ⟨_, _, rfl, _, _, rfl, rfl⟩
theorem aslAbx (lo hi : Byte) : Statement (.aslAbx lo hi) := ⟨_, _, rfl, _, _, rfl, rfl⟩
theorem sloAbx (lo hi : Byte) : Statement (.sloAbx lo hi) := ⟨_, _, rfl, _, _, rfl, rfl⟩
theorem jsrAbs (lo hi : Byte) : Statement (.jsrAbs lo hi) := ⟨_, _, rfl, _, _, rfl, rfl⟩
theorem andIzx (b : Byte) : Statement (.andIzx b) := ⟨_, _, rfl, _, rfl, rfl⟩
theorem jam22 : Statement (.jam22) := ⟨_, _, rfl, rfl, rfl⟩
theorem rlaIzx (b : Byte) : Statement (.rlaIzx b) := ⟨_, _, rfl, _, rfl, rfl⟩
theorem bitZp (b : Byte) : Statement (.bitZp b) := ⟨_, _, rfl, _, rfl, rfl⟩
theorem andZp (b : Byte) : Statement (.andZp b) := ⟨_, _, rfl, _, rfl, rfl⟩
theorem rolZp (b : Byte) : Statement (.rolZp b) := ⟨_, _, rfl, _, rfl, rfl⟩
theorem rlaZp (b : Byte) : Statement (.rlaZp b) := ⟨_, _, rfl, _, rfl, rfl⟩
theorem plp : Statement (.plp) := ⟨_, _, rfl, rfl, rfl⟩
theorem andImm (b : Byte) : Statement (.andImm b) := ⟨_, _, rfl, _, rfl, rfl⟩
theorem rolAcc : Statement (.rolAcc) := ⟨_, _, rfl, rfl, rfl⟩
theorem anc2B (b : Byte) : Statement (.anc2B b) := ⟨_, _, rfl, _, rfl, rfl⟩
theorem bitAbs (lo hi : Byte) : Statement (.bitAbs lo hi) := ⟨_, _, rfl, _, _, rfl, rfl⟩
theorem andAbs (lo hi : Byte) : Statement (.andAbs lo hi) := ⟨_, _, rfl, _, _, rfl, rfl⟩
theorem rolAbs (lo hi : Byte) : Statement (.rolAbs lo hi) := ⟨_, _, rfl, _, _, rfl, rfl⟩
theorem rlaAbs (lo hi : Byte) : Statement (.rlaAbs lo hi) := ⟨_, _, rfl, _, _, rfl, rfl⟩
theorem bmi (off : Byte) : Statement (.bmi off) := ⟨_, _, rfl, _, rfl, rfl⟩
theorem andIzy (b : Byte) : Statement (.andIzy b) := ⟨_, _, rfl, _, rfl, rfl⟩
theorem jam32 : Statement (.jam32) := ⟨_, _, rfl, rfl, rfl⟩
theorem rlaIzy (b : Byte) : Statement (.rlaIzy b) := ⟨_, _, rfl, _, rfl, rfl⟩
theorem nopZpx34 (b : Byte) : Statement (.nopZpx34 b) := ⟨_, _, rfl, _, rfl, rfl⟩
theorem andZpx (b : Byte) : Statement (.andZpx b) := ⟨_, _, rfl, _, rfl, rfl⟩
theorem rolZpx (b : Byte) : Statement (.rolZpx b) := ⟨_, _, rfl, _, rfl, rfl⟩
theorem rlaZpx (b : Byte) : Statement (.rlaZpx b) := ⟨_, _, rfl, _, rfl, rfl⟩
theorem sec : Statement (.sec) := ⟨_, _, rfl, rfl, rfl⟩
theorem andAby (lo hi : Byte) : Statement (.andAby lo hi) := ⟨_, _, rfl, _, _, rfl, rfl⟩
theorem nopImp3A : Statement (.nopImp3A) := ⟨_, _, rfl, rfl, rfl⟩
theorem rlaAby (lo hi : Byte) : Statement (.rlaAby lo hi) := ⟨_, _, rfl, _, _, rfl, rfl⟩
theorem nopAbx3C (lo hi : Byte) : Statement (.nopAbx3C lo hi) := ⟨_, _, rfl, _, _, rfl, rfl⟩
theorem andAbx (lo hi : Byte) : Statement (.andAbx lo hi) := ⟨_, _, rfl, _, _, rfl, rfl⟩
theorem rolAbx (lo hi : Byte) : Statement (.rolAbx lo hi) := ⟨_, _, rfl, _, _, rfl, rfl⟩
theorem rlaAbx (lo hi : Byte) : Statement (.rlaAbx lo hi) := ⟨_, _, rfl, _, _, rfl, rfl⟩
theorem rti : Statement (.rti) := ⟨_, _, rfl, rfl, rfl⟩
theorem eorIzx (b : Byte) : Statement (.eorIzx b) := ⟨_, _, rfl, _, rfl, rfl⟩
theorem jam42 : Statement (.jam42) := ⟨_, _, rfl, rfl, rfl⟩
theorem sreIzx (b : Byte) : Statement (.sreIzx b) := ⟨_, _, rfl, _, rfl, rfl⟩
theorem nopZp44 (b : Byte) : Statement (.nopZp44 b) := ⟨_, _, rfl, _, rfl, rfl⟩
theorem eorZp (b : Byte) : Statement (.eorZp b) := ⟨_, _, rfl, _, rfl, rfl⟩
theorem lsrZp (b : Byte) : Statement (.lsrZp b) := ⟨_, _, rfl, _, rfl, rfl⟩
theorem sreZp (b : Byte) : Statement (.sreZp b) := ⟨_, _, rfl, _, rfl, rfl⟩
theorem pha : Statement (.pha) := ⟨_, _, rfl, rfl, rfl⟩
theorem eorImm (b : Byte) : Statement (.eorImm b) := ⟨_, _, rfl, _, rfl, rfl⟩
theorem lsrAcc : Statement (.lsrAcc) := ⟨_, _, rfl, rfl, rfl⟩
theorem alrImm (b : Byte) : Statement (.alrImm b) := ⟨_, _, rfl, _, rfl, rfl⟩
theorem jmpAbs (lo hi : Byte) : Statement (.jmpAbs lo hi) := ⟨_, _, rfl, _, _, rfl, rfl⟩
theorem eorAbs (lo hi : Byte) : Statement (.eorAbs lo hi) := ⟨_, _, rfl, _, _, rfl, rfl⟩
theorem lsrAbs (lo hi : Byte) : Statement (.lsrAbs lo hi) := ⟨_, _, rfl, _, _, rfl, rfl⟩
theorem sreAbs (lo hi : Byte) : Statement (.sreAbs lo hi) := ⟨_, _, rfl, _, _, rfl, rfl⟩
theorem bvc (off : Byte) : Statement (.bvc off) := ⟨_, _, rfl, _, rfl, rfl⟩
theorem eorIzy (b : Byte) : Statement (.eorIzy b) := ⟨_, _, rfl, _, rfl, rfl⟩
theorem jam52 : Statement (.jam52) := ⟨_, _, rfl, rfl, rfl⟩
theorem sreIzy (b : Byte) : Statement (.sreIzy b) := ⟨_, _, rfl, _, rfl, rfl⟩
theorem nopZpx54 (b : Byte) : Statement (.nopZpx54 b) := ⟨_, _, rfl, _, rfl, rfl⟩
theorem eorZpx (b : Byte) : Statement (.eorZpx b) := ⟨_, _, rfl, _, rfl, rfl⟩
theorem lsrZpx (b : Byte) : Statement (.lsrZpx b) := ⟨_, _, rfl, _, rfl, rfl⟩
theorem sreZpx (b : Byte) : Statement (.sreZpx b) := ⟨_, _, rfl, _, rfl, rfl⟩
theorem cli : Statement (.cli) := ⟨_, _, rfl, rfl, rfl⟩
theorem eorAby (lo hi : Byte) : Statement (.eorAby lo hi) := ⟨_, _, rfl, _, _, rfl, rfl⟩
theorem nopImp5A : Statement (.nopImp5A) := ⟨_, _, rfl, rfl, rfl⟩
theorem sreAby (lo hi : Byte) : Statement (.sreAby lo hi) := ⟨_, _, rfl, _, _, rfl, rfl⟩
theorem nopAbx5C (lo hi : Byte) : Statement (.nopAbx5C lo hi) := ⟨_, _, rfl, _, _, rfl, rfl⟩
theorem eorAbx (lo hi : Byte) : Statement (.eorAbx lo hi) := ⟨_, _, rfl, _, _, rfl, rfl⟩
theorem lsrAbx (lo hi : Byte) : Statement (.lsrAbx lo hi) := ⟨_, _, rfl, _, _, rfl, rfl⟩
theorem sreAbx (lo hi : Byte) : Statement (.sreAbx lo hi) := ⟨_, _, rfl, _, _, rfl, rfl⟩
theorem rts : Statement (.rts) := ⟨_, _, rfl, rfl, rfl⟩
theorem adcIzx (b : Byte) : Statement (.adcIzx b) := ⟨_, _, rfl, _, rfl, rfl⟩
theorem jam62 : Statement (.jam62) := ⟨_, _, rfl, rfl, rfl⟩
theorem rraIzx (b : Byte) : Statement (.rraIzx b) := ⟨_, _, rfl, _, rfl, rfl⟩
theorem nopZp64 (b : Byte) : Statement (.nopZp64 b) := ⟨_, _, rfl, _, rfl, rfl⟩
theorem adcZp (b : Byte) : Statement (.adcZp b) := ⟨_, _, rfl, _, rfl, rfl⟩
theorem rorZp (b : Byte) : Statement (.rorZp b) := ⟨_, _, rfl, _, rfl, rfl⟩
theorem rraZp (b : Byte) : Statement (.rraZp b) := ⟨_, _, rfl, _, rfl, rfl⟩
theorem pla : Statement (.pla) := ⟨_, _, rfl, rfl, rfl⟩
theorem adcImm (b : Byte) : Statement (.adcImm b) := ⟨_, _, rfl, _, rfl, rfl⟩
theorem rorAcc : Statement (.rorAcc) := ⟨_, _, rfl, rfl, rfl⟩
theorem arrImm (b : Byte) : Statement (.arrImm b) := ⟨_, _, rfl, _, rfl, rfl⟩
theorem jmpInd (lo hi : Byte) : Statement (.jmpInd lo hi) := ⟨_, _, rfl, _, _, rfl, rfl⟩
theorem adcAbs (lo hi : Byte) : Statement (.adcAbs lo hi) := ⟨_, _, rfl, _, _, rfl, rfl⟩
theorem rorAbs (lo hi : Byte) : Statement (.rorAbs lo hi) := ⟨_, _, rfl, _, _, rfl, rfl⟩
theorem rraAbs (lo hi : Byte) : Statement (.rraAbs lo hi) := ⟨_, _, rfl, _, _, rfl, rfl⟩
theorem bvs (off : Byte) : Statement (.bvs off) := ⟨_, _, rfl, _, rfl, rfl⟩
theorem adcIzy (b : Byte) : Statement (.adcIzy b) := ⟨_, _, rfl, _, rfl, rfl⟩
theorem jam72 : Statement (.jam72) := ⟨_, _, rfl, rfl, rfl⟩
theorem rraIzy (b : Byte) : Statement (.rraIzy b) := ⟨_, _, rfl, _, rfl, rfl⟩
theorem nopZpx74 (b : Byte) : Statement (.nopZpx74 b) := ⟨_, _, rfl, _, rfl, rfl⟩
theorem adcZpx (b : Byte) : Statement (.adcZpx b) := ⟨_, _, rfl, _, rfl, rfl⟩
theorem rorZpx (b : Byte) : Statement (.rorZpx b) := ⟨_, _, rfl, _, rfl, rfl⟩
theorem rraZpx (b : Byte) : Statement (.rraZpx b) := ⟨_, _, rfl, _, rfl, rfl⟩
theorem sei : Statement (.sei) := ⟨_, _, rfl, rfl, rfl⟩
theorem adcAby (lo hi : Byte) : Statement (.adcAby lo hi) := ⟨_, _, rfl, _, _, rfl, rfl⟩
theorem nopImp7A : Statement (.nopImp7A) := ⟨_, _, rfl, rfl, rfl⟩
theorem rraAby (lo hi : Byte) : Statement (.rraAby lo hi) := ⟨_, _, rfl, _, _, rfl, rfl⟩
theorem nopAbx7C (lo hi : Byte) : Statement (.nopAbx7C lo hi) := ⟨_, _, rfl, _, _, rfl, rfl⟩
theorem adcAbx (lo hi : Byte) : Statement (.adcAbx lo hi) := ⟨_, _, rfl, _, _, rfl, rfl⟩
theorem rorAbx (lo hi : Byte) : Statement (.rorAbx lo hi) := ⟨_, _, rfl, _, _, rfl, rfl⟩
theorem rraAbx (lo hi : Byte) : Statement (.rraAbx lo hi) := ⟨_, _, rfl, _, _, rfl, rfl⟩
theorem nopImm80 (b : Byte) : Statement (.nopImm80 b) := ⟨_, _, rfl, _, rfl, rfl⟩
theorem staIzx (b : Byte) : Statement (.staIzx b) := ⟨_, _, rfl, _, rfl, rfl⟩
theorem nopImm82 (b : Byte) : Statement (.nopImm82 b) := ⟨_, _, rfl, _, rfl, rfl⟩
theorem saxIzx (b : Byte) : Statement (.saxIzx b) := ⟨_, _, rfl, _, rfl, rfl⟩
theorem styZp (b : Byte) : Statement (.styZp b) := ⟨_, _, rfl, _, rfl, rfl⟩
theorem staZp (b : Byte) : Statement (.staZp b) := ⟨_, _, rfl, _, rfl, rfl⟩
theorem stxZp (b : Byte) : Statement (.stxZp b) := ⟨_, _, rfl, _, rfl, rfl⟩
theorem saxZp (b : Byte) : Statement (.saxZp b) := ⟨_, _, rfl, _, rfl, rfl⟩
theorem dey : Statement (.dey) := ⟨_, _, rfl, rfl, rfl⟩
theorem nopImm89 (b : Byte) : Statement (.nopImm89 b) := ⟨_, _, rfl, _, rfl, rfl⟩
theorem txa : Statement (.txa) := ⟨_, _, rfl, rfl, rfl⟩
theorem aneImm (b : Byte) : Statement (.aneImm b) := ⟨_, _, rfl, _, rfl, rfl⟩
theorem styAbs (lo hi : Byte) : Statement (.styAbs lo hi) := ⟨_, _, rfl, _, _, rfl, rfl⟩
theorem staAbs (lo hi : Byte) : Statement (.staAbs lo hi) := ⟨_, _, rfl, _, _, rfl, rfl⟩
theorem stxAbs (lo hi : Byte) : Statement (.stxAbs lo hi) := ⟨_, _, rfl, _, _, rfl, rfl⟩
theorem saxAbs (lo hi : Byte) : Statement (.saxAbs lo hi) := ⟨_, _, rfl, _, _, rfl, rfl⟩
theorem bcc (off : Byte) : Statement (.bcc off) := ⟨_, _, rfl, _, rfl, rfl⟩
theorem staIzy (b : Byte) : Statement (.staIzy b) := ⟨_, _, rfl, _, rfl, rfl⟩
theorem jam92 : Statement (.jam92) := ⟨_, _, rfl, rfl, rfl⟩
theorem shaIzy (b : Byte) : Statement (.shaIzy b) := ⟨_, _, rfl, _, rfl, rfl⟩
theorem styZpx (b : Byte) : Statement (.styZpx b) := ⟨_, _, rfl, _, rfl, rfl⟩
theorem staZpx (b : Byte) : Statement (.staZpx b) := ⟨_, _, rfl, _, rfl, rfl⟩
theorem stxZpy (b : Byte) : Statement (.stxZpy b) := ⟨_, _, rfl, _, rfl, rfl⟩
theorem saxZpy (b : Byte) : Statement (.saxZpy b) := ⟨_, _, rfl, _, rfl, rfl⟩
theorem tya : Statement (.tya) := ⟨_, _, rfl, rfl, rfl⟩
theorem staAby (lo hi : Byte) : Statement (.staAby lo hi) := ⟨_, _, rfl, _, _, rfl, rfl⟩
theorem txs : Statement (.txs) := ⟨_, _, rfl, rfl, rfl⟩
theorem tasAby (lo hi : Byte) : Statement (.tasAby lo hi) := ⟨_, _, rfl, _, _, rfl, rfl⟩
theorem shyAbx (lo hi : Byte) : Statement (.shyAbx lo hi) := ⟨_, _, rfl, _, _, rfl, rfl⟩
theorem staAbx (lo hi : Byte) : Statement (.staAbx lo hi) := ⟨_, _, rfl, _, _, rfl, rfl⟩
theorem shxAby (lo hi : Byte) : Statement (.shxAby lo hi) := ⟨_, _, rfl, _, _, rfl, rfl⟩
theorem shaAby (lo hi : Byte) : Statement (.shaAby lo hi) := ⟨_, _, rfl, _, _, rfl, rfl⟩
theorem ldyImm (b : Byte) : Statement (.ldyImm b) := ⟨_, _, rfl, _, rfl, rfl⟩
theorem ldaIzx (b : Byte) : Statement (.ldaIzx b) := ⟨_, _, rfl, _, rfl, rfl⟩
theorem ldxImm (b : Byte) : Statement (.ldxImm b) := ⟨_, _, rfl, _, rfl, rfl⟩
theorem laxIzx (b : Byte) : Statement (.laxIzx b) := ⟨_, _, rfl, _, rfl, rfl⟩
theorem ldyZp (b : Byte) : Statement (.ldyZp b) := ⟨_, _, rfl, _, rfl, rfl⟩
theorem ldaZp (b : Byte) : Statement (.ldaZp b) := ⟨_, _, rfl, _, rfl, rfl⟩
theorem ldxZp (b : Byte) : Statement (.ldxZp b) := ⟨_, _, rfl, _, rfl, rfl⟩
theorem laxZp (b : Byte) : Statement (.laxZp b) := ⟨_, _, rfl, _, rfl, rfl⟩
theorem tay : Statement (.tay) := ⟨_, _, rfl, rfl, rfl⟩
theorem ldaImm (b : Byte) : Statement (.ldaImm b) := ⟨_, _, rfl, _, rfl, rfl⟩
theorem tax : Statement (.tax) := ⟨_, _, rfl, rfl, rfl⟩
theorem lxaImm (b : Byte) : Statement (.lxaImm b) := ⟨_, _, rfl, _, rfl, rfl⟩
theorem ldyAbs (lo hi : Byte) : Statement (.ldyAbs lo hi) := ⟨_, _, rfl, _, _, rfl, rfl⟩
theorem ldaAbs (lo hi : Byte) : Statement (.ldaAbs lo hi) := ⟨_, _, rfl, _, _, rfl, rfl⟩
theorem ldxAbs (lo hi : Byte) : Statement (.ldxAbs lo hi) := ⟨_, _, rfl, _, _, rfl, rfl⟩
theorem laxAbs (lo hi : Byte) : Statement (.laxAbs lo hi) := ⟨_, _, rfl, _, _, rfl, rfl⟩
theorem bcs (off : Byte) : Statement (.bcs off) := ⟨_, _, rfl, _, rfl, rfl⟩
theorem ldaIzy (b : Byte) : Statement (.ldaIzy b) := ⟨_, _, rfl, _, rfl, rfl⟩
theorem jamB2 : Statement (.jamB2) := ⟨_, _, rfl, rfl, rfl⟩
theorem laxIzy (b : Byte) : Statement (.laxIzy b) := ⟨_, _, rfl, _, rfl, rfl⟩
theorem ldyZpx (b : Byte) : Statement (.ldyZpx b) := ⟨_, _, rfl, _, rfl, rfl⟩
theorem ldaZpx (b : Byte) : Statement (.ldaZpx b) := ⟨_, _, rfl, _, rfl, rfl⟩
theorem ldxZpy (b : Byte) : Statement (.ldxZpy b) := ⟨_, _, rfl, _, rfl, rfl⟩
theorem laxZpy (b : Byte) : Statement (.laxZpy b) := ⟨_, _, rfl, _, rfl, rfl⟩
theorem clv : Statement (.clv) := ⟨_, _, rfl, rfl, rfl⟩
theorem ldaAby (lo hi : Byte) : Statement (.ldaAby lo hi) := ⟨_, _, rfl, _, _, rfl, rfl⟩
theorem tsx : Statement (.tsx) := ⟨_, _, rfl, rfl, rfl⟩
theorem lasAby (lo hi : Byte) : Statement (.lasAby lo hi) := ⟨_, _, rfl, _, _, rfl, rfl⟩
theorem ldyAbx (lo hi : Byte) : Statement (.ldyAbx lo hi) := ⟨_, _, rfl, _, _, rfl, rfl⟩
theorem ldaAbx (lo hi : Byte) : Statement (.ldaAbx lo hi) := ⟨_, _, rfl, _, _, rfl, rfl⟩
theorem ldxAby (lo hi : Byte) : Statement (.ldxAby lo hi) := ⟨_, _, rfl, _, _, rfl, rfl⟩
theorem laxAby (lo hi : Byte) : Statement (.laxAby lo hi) := ⟨_, _, rfl, _, _, rfl, rfl⟩
theorem cpyImm (b : Byte) : Statement (.cpyImm b) := ⟨_, _, rfl, _, rfl, rfl⟩
theorem cmpIzx (b : Byte) : Statement (.cmpIzx b) := ⟨_, _, rfl, _, rfl, rfl⟩
theorem nopImmC2 (b : Byte) : Statement (.nopImmC2 b) := ⟨_, _, rfl, _, rfl, rfl⟩
theorem dcpIzx (b : Byte) : Statement (.dcpIzx b) := ⟨_, _, rfl, _, rfl, rfl⟩
theorem cpyZp (b : Byte) : Statement (.cpyZp b) := ⟨_, _, rfl, _, rfl, rfl⟩
theorem cmpZp (b : Byte) : Statement (.cmpZp b) := ⟨_, _, rfl, _, rfl, rfl⟩
theorem decZp (b : Byte) : Statement (.decZp b) := ⟨_, _, rfl, _, rfl, rfl⟩
theorem dcpZp (b : Byte) : Statement (.dcpZp b) := ⟨_, _, rfl, _, rfl, rfl⟩
theorem iny : Statement (.iny) := ⟨_, _, rfl, rfl, rfl⟩
theorem cmpImm (b : Byte) : Statement (.cmpImm b) := ⟨_, _, rfl, _, rfl, rfl⟩
theorem dex : Statement (.dex) := ⟨_, _, rfl, rfl, rfl⟩
theorem sbxImm (b : Byte) : Statement (.sbxImm b) := ⟨_, _, rfl, _, rfl, rfl⟩
theorem cpyAbs (lo hi : Byte) : Statement (.cpyAbs lo hi) := ⟨_, _, rfl, _, _, rfl, rfl⟩
theorem cmpAbs (lo hi : Byte) : Statement (.cmpAbs lo hi) := ⟨_, _, rfl, _, _, rfl, rfl⟩
theorem decAbs (lo hi : Byte) : Statement (.decAbs lo hi) := ⟨_, _, rfl, _, _, rfl, rfl⟩
theorem dcpAbs (lo hi : Byte) : Statement (.dcpAbs lo hi) := ⟨_, _, rfl, _, _, rfl, rfl⟩
theorem bne (off : Byte) : Statement (.bne off) := ⟨_, _, rfl, _, rfl, rfl⟩
theorem cmpIzy (b : Byte) : Statement (.cmpIzy b) := ⟨_, _, rfl, _, rfl, rfl⟩
theorem jamD2 : Statement (.jamD2) := ⟨_, _, rfl, rfl, rfl⟩
theorem dcpIzy (b : Byte) : Statement (.dcpIzy b) := ⟨_, _, rfl, _, rfl, rfl⟩
theorem nopZpxD4 (b : Byte) : Statement (.nopZpxD4 b) := ⟨_, _, rfl, _, rfl, rfl⟩
theorem cmpZpx (b : Byte) : Statement (.cmpZpx b) := ⟨_, _, rfl, _, rfl, rfl⟩
theorem decZpx (b : Byte) : Statement (.decZpx b) := ⟨_, _, rfl, _, rfl, rfl⟩
theorem dcpZpx (b : Byte) : Statement (.dcpZpx b) := ⟨_, _, rfl, _, rfl, rfl⟩
theorem cld : Statement (.cld) := ⟨_, _, rfl, rfl, rfl⟩
theorem cmpAby (lo hi : Byte) : Statement (.cmpAby lo hi) := ⟨_, _, rfl, _, _, rfl, rfl⟩
theorem nopImpDA : Statement (.nopImpDA) := ⟨_, _, rfl, rfl, rfl⟩
theorem dcpAby (lo hi : Byte) : Statement (.dcpAby lo hi) := ⟨_, _, rfl, _, _, rfl, rfl⟩
theorem nopAbxDC (lo hi : Byte) : Statement (.nopAbxDC lo hi) := ⟨_, _, rfl, _, _, rfl, rfl⟩
theorem cmpAbx (lo hi : Byte) : Statement (.cmpAbx lo hi) := ⟨_, _, rfl, _, _, rfl, rfl⟩
theorem decAbx (lo hi : Byte) : Statement (.decAbx lo hi) := ⟨_, _, rfl, _, _, rfl, rfl⟩
theorem dcpAbx (lo hi : Byte) : Statement (.dcpAbx lo hi) := ⟨_, _, rfl, _, _, rfl, rfl⟩
theorem cpxImm (b : Byte) : Statement (.cpxImm b) := ⟨_, _, rfl, _, rfl, rfl⟩
theorem sbcIzx (b : Byte) : Statement (.sbcIzx b) := ⟨_, _, rfl, _, rfl, rfl⟩
theorem nopImmE2 (b : Byte) : Statement (.nopImmE2 b) := ⟨_, _, rfl, _, rfl, rfl⟩
theorem iscIzx (b : Byte) : Statement (.iscIzx b) := ⟨_, _, rfl, _, rfl, rfl⟩
theorem cpxZp (b : Byte) : Statement (.cpxZp b) := ⟨_, _, rfl, _, rfl, rfl⟩
theorem sbcZp (b : Byte) : Statement (.sbcZp b) := ⟨_, _, rfl, _, rfl, rfl⟩
theorem incZp (b : Byte) : Statement (.incZp b) := ⟨_, _, rfl, _, rfl, rfl⟩
theorem iscZp (b : Byte) : Statement (.iscZp b) := ⟨_, _, rfl, _, rfl, rfl⟩
theorem inx : Statement (.inx) := ⟨_, _, rfl, rfl, rfl⟩
theorem sbcImm (b : Byte) : Statement (.sbcImm b) := ⟨_, _, rfl, _, rfl, rfl⟩
theorem nop : Statement (.nop) := ⟨_, _, rfl, rfl, rfl⟩
theorem usbcImm (b : Byte) : Statement (.usbcImm b) := ⟨_, _, rfl, _, rfl, rfl⟩
theorem cpxAbs (lo hi : Byte) : Statement (.cpxAbs lo hi) := ⟨_, _, rfl, _, _, rfl, rfl⟩
theorem sbcAbs (lo hi : Byte) : Statement (.sbcAbs lo hi) := ⟨_, _, rfl, _, _, rfl, rfl⟩
theorem incAbs (lo hi : Byte) : Statement (.incAbs lo hi) := ⟨_, _, rfl, _, _, rfl, rfl⟩
theorem iscAbs (lo hi : Byte) : Statement (.iscAbs lo hi) := ⟨_, _, rfl, _, _, rfl, rfl⟩
theorem beq (off : Byte) : Statement (.beq off) := ⟨_, _, rfl, _, rfl, rfl⟩
theorem sbcIzy (b : Byte) : Statement (.sbcIzy b) := ⟨_, _, rfl, _, rfl, rfl⟩
theorem jamF2 : Statement (.jamF2) := ⟨_, _, rfl, rfl, rfl⟩
theorem iscIzy (b : Byte) : Statement (.iscIzy b) := ⟨_, _, rfl, _, rfl, rfl⟩
theorem nopZpxF4 (b : Byte) : Statement (.nopZpxF4 b) := ⟨_, _, rfl, _, rfl, rfl⟩
theorem sbcZpx (b : Byte) : Statement (.sbcZpx b) := ⟨_, _, rfl, _, rfl, rfl⟩
theorem incZpx (b : Byte) : Statement (.incZpx b) := ⟨_, _, rfl, _, rfl, rfl⟩
theorem iscZpx (b : Byte) : Statement (.iscZpx b) := ⟨_, _, rfl, _, rfl, rfl⟩
theorem sed : Statement (.sed) := ⟨_, _, rfl, rfl, rfl⟩
theorem sbcAby (lo hi : Byte) : Statement (.sbcAby lo hi) := ⟨_, _, rfl, _, _, rfl, rfl⟩
theorem nopImpFA : Statement (.nopImpFA) := ⟨_, _, rfl, rfl, rfl⟩
theorem iscAby (lo hi : Byte) : Statement (.iscAby lo hi) := ⟨_, _, rfl, _, _, rfl, rfl⟩
theorem nopAbxFC (lo hi : Byte) : Statement (.nopAbxFC lo hi) := ⟨_, _, rfl, _, _, rfl, rfl⟩
theorem sbcAbx (lo hi : Byte) : Statement (.sbcAbx lo hi) := ⟨_, _, rfl, _, _, rfl, rfl⟩
theorem incAbx (lo hi : Byte) : Statement (.incAbx lo hi) := ⟨_, _, rfl, _, _, rfl, rfl⟩
theorem iscAbx (lo hi : Byte) : Statement (.iscAbx lo hi) := ⟨_, _, rfl, _, _, rfl, rfl⟩

/-- The statement of every instruction. -/
theorem of_instr : (i : Instr) → Statement i
  | .brk => brk
  | .oraIzx b => oraIzx b
  | .jam02 => jam02
  | .sloIzx b => sloIzx b
  | .nopZp04 b => nopZp04 b
  | .oraZp b => oraZp b
  | .aslZp b => aslZp b
  | .sloZp b => sloZp b
  | .php => php
  | .oraImm b => oraImm b
  | .aslAcc => aslAcc
  | .anc0B b => anc0B b
  | .nopAbs0C lo hi => nopAbs0C lo hi
  | .oraAbs lo hi => oraAbs lo hi
  | .aslAbs lo hi => aslAbs lo hi
  | .sloAbs lo hi => sloAbs lo hi
  | .bpl off => bpl off
  | .oraIzy b => oraIzy b
  | .jam12 => jam12
  | .sloIzy b => sloIzy b
  | .nopZpx14 b => nopZpx14 b
  | .oraZpx b => oraZpx b
  | .aslZpx b => aslZpx b
  | .sloZpx b => sloZpx b
  | .clc => clc
  | .oraAby lo hi => oraAby lo hi
  | .nopImp1A => nopImp1A
  | .sloAby lo hi => sloAby lo hi
  | .nopAbx1C lo hi => nopAbx1C lo hi
  | .oraAbx lo hi => oraAbx lo hi
  | .aslAbx lo hi => aslAbx lo hi
  | .sloAbx lo hi => sloAbx lo hi
  | .jsrAbs lo hi => jsrAbs lo hi
  | .andIzx b => andIzx b
  | .jam22 => jam22
  | .rlaIzx b => rlaIzx b
  | .bitZp b => bitZp b
  | .andZp b => andZp b
  | .rolZp b => rolZp b
  | .rlaZp b => rlaZp b
  | .plp => plp
  | .andImm b => andImm b
  | .rolAcc => rolAcc
  | .anc2B b => anc2B b
  | .bitAbs lo hi => bitAbs lo hi
  | .andAbs lo hi => andAbs lo hi
  | .rolAbs lo hi => rolAbs lo hi
  | .rlaAbs lo hi => rlaAbs lo hi
  | .bmi off => bmi off
  | .andIzy b => andIzy b
  | .jam32 => jam32
  | .rlaIzy b => rlaIzy b
  | .nopZpx34 b => nopZpx34 b
  | .andZpx b => andZpx b
  | .rolZpx b => rolZpx b
  | .rlaZpx b => rlaZpx b
  | .sec => sec
  | .andAby lo hi => andAby lo hi
  | .nopImp3A => nopImp3A
  | .rlaAby lo hi => rlaAby lo hi
  | .nopAbx3C lo hi => nopAbx3C lo hi
  | .andAbx lo hi => andAbx lo hi
  | .rolAbx lo hi => rolAbx lo hi
  | .rlaAbx lo hi => rlaAbx lo hi
  | .rti => rti
  | .eorIzx b => eorIzx b
  | .jam42 => jam42
  | .sreIzx b => sreIzx b
  | .nopZp44 b => nopZp44 b
  | .eorZp b => eorZp b
  | .lsrZp b => lsrZp b
  | .sreZp b => sreZp b
  | .pha => pha
  | .eorImm b => eorImm b
  | .lsrAcc => lsrAcc
  | .alrImm b => alrImm b
  | .jmpAbs lo hi => jmpAbs lo hi
  | .eorAbs lo hi => eorAbs lo hi
  | .lsrAbs lo hi => lsrAbs lo hi
  | .sreAbs lo hi => sreAbs lo hi
  | .bvc off => bvc off
  | .eorIzy b => eorIzy b
  | .jam52 => jam52
  | .sreIzy b => sreIzy b
  | .nopZpx54 b => nopZpx54 b
  | .eorZpx b => eorZpx b
  | .lsrZpx b => lsrZpx b
  | .sreZpx b => sreZpx b
  | .cli => cli
  | .eorAby lo hi => eorAby lo hi
  | .nopImp5A => nopImp5A
  | .sreAby lo hi => sreAby lo hi
  | .nopAbx5C lo hi => nopAbx5C lo hi
  | .eorAbx lo hi => eorAbx lo hi
  | .lsrAbx lo hi => lsrAbx lo hi
  | .sreAbx lo hi => sreAbx lo hi
  | .rts => rts
  | .adcIzx b => adcIzx b
  | .jam62 => jam62
  | .rraIzx b => rraIzx b
  | .nopZp64 b => nopZp64 b
  | .adcZp b => adcZp b
  | .rorZp b => rorZp b
  | .rraZp b => rraZp b
  | .pla => pla
  | .adcImm b => adcImm b
  | .rorAcc => rorAcc
  | .arrImm b => arrImm b
  | .jmpInd lo hi => jmpInd lo hi
  | .adcAbs lo hi => adcAbs lo hi
  | .rorAbs lo hi => rorAbs lo hi
  | .rraAbs lo hi => rraAbs lo hi
  | .bvs off => bvs off
  | .adcIzy b => adcIzy b
  | .jam72 => jam72
  | .rraIzy b => rraIzy b
  | .nopZpx74 b => nopZpx74 b
  | .adcZpx b => adcZpx b
  | .rorZpx b => rorZpx b
  | .rraZpx b => rraZpx b
  | .sei => sei
  | .adcAby lo hi => adcAby lo hi
  | .nopImp7A => nopImp7A
  | .rraAby lo hi => rraAby lo hi
  | .nopAbx7C lo hi => nopAbx7C lo hi
  | .adcAbx lo hi => adcAbx lo hi
  | .rorAbx lo hi => rorAbx lo hi
  | .rraAbx lo hi => rraAbx lo hi
  | .nopImm80 b => nopImm80 b
  | .staIzx b => staIzx b
  | .nopImm82 b => nopImm82 b
  | .saxIzx b => saxIzx b
  | .styZp b => styZp b
  | .staZp b => staZp b
  | .stxZp b => stxZp b
  | .saxZp b => saxZp b
  | .dey => dey
  | .nopImm89 b => nopImm89 b
  | .txa => txa
  | .aneImm b => aneImm b
  | .styAbs lo hi => styAbs lo hi
  | .staAbs lo hi => staAbs lo hi
  | .stxAbs lo hi => stxAbs lo hi
  | .saxAbs lo hi => saxAbs lo hi
  | .bcc off => bcc off
  | .staIzy b => staIzy b
  | .jam92 => jam92
  | .shaIzy b => shaIzy b
  | .styZpx b => styZpx b
  | .staZpx b => staZpx b
  | .stxZpy b => stxZpy b
  | .saxZpy b => saxZpy b
  | .tya => tya
  | .staAby lo hi => staAby lo hi
  | .txs => txs
  | .tasAby lo hi => tasAby lo hi
  | .shyAbx lo hi => shyAbx lo hi
  | .staAbx lo hi => staAbx lo hi
  | .shxAby lo hi => shxAby lo hi
  | .shaAby lo hi => shaAby lo hi
  | .ldyImm b => ldyImm b
  | .ldaIzx b => ldaIzx b
  | .ldxImm b => ldxImm b
  | .laxIzx b => laxIzx b
  | .ldyZp b => ldyZp b
  | .ldaZp b => ldaZp b
  | .ldxZp b => ldxZp b
  | .laxZp b => laxZp b
  | .tay => tay
  | .ldaImm b => ldaImm b
  | .tax => tax
  | .lxaImm b => lxaImm b
  | .ldyAbs lo hi => ldyAbs lo hi
  | .ldaAbs lo hi => ldaAbs lo hi
  | .ldxAbs lo hi => ldxAbs lo hi
  | .laxAbs lo hi => laxAbs lo hi
  | .bcs off => bcs off
  | .ldaIzy b => ldaIzy b
  | .jamB2 => jamB2
  | .laxIzy b => laxIzy b
  | .ldyZpx b => ldyZpx b
  | .ldaZpx b => ldaZpx b
  | .ldxZpy b => ldxZpy b
  | .laxZpy b => laxZpy b
  | .clv => clv
  | .ldaAby lo hi => ldaAby lo hi
  | .tsx => tsx
  | .lasAby lo hi => lasAby lo hi
  | .ldyAbx lo hi => ldyAbx lo hi
  | .ldaAbx lo hi => ldaAbx lo hi
  | .ldxAby lo hi => ldxAby lo hi
  | .laxAby lo hi => laxAby lo hi
  | .cpyImm b => cpyImm b
  | .cmpIzx b => cmpIzx b
  | .nopImmC2 b => nopImmC2 b
  | .dcpIzx b => dcpIzx b
  | .cpyZp b => cpyZp b
  | .cmpZp b => cmpZp b
  | .decZp b => decZp b
  | .dcpZp b => dcpZp b
  | .iny => iny
  | .cmpImm b => cmpImm b
  | .dex => dex
  | .sbxImm b => sbxImm b
  | .cpyAbs lo hi => cpyAbs lo hi
  | .cmpAbs lo hi => cmpAbs lo hi
  | .decAbs lo hi => decAbs lo hi
  | .dcpAbs lo hi => dcpAbs lo hi
  | .bne off => bne off
  | .cmpIzy b => cmpIzy b
  | .jamD2 => jamD2
  | .dcpIzy b => dcpIzy b
  | .nopZpxD4 b => nopZpxD4 b
  | .cmpZpx b => cmpZpx b
  | .decZpx b => decZpx b
  | .dcpZpx b => dcpZpx b
  | .cld => cld
  | .cmpAby lo hi => cmpAby lo hi
  | .nopImpDA => nopImpDA
  | .dcpAby lo hi => dcpAby lo hi
  | .nopAbxDC lo hi => nopAbxDC lo hi
  | .cmpAbx lo hi => cmpAbx lo hi
  | .decAbx lo hi => decAbx lo hi
  | .dcpAbx lo hi => dcpAbx lo hi
  | .cpxImm b => cpxImm b
  | .sbcIzx b => sbcIzx b
  | .nopImmE2 b => nopImmE2 b
  | .iscIzx b => iscIzx b
  | .cpxZp b => cpxZp b
  | .sbcZp b => sbcZp b
  | .incZp b => incZp b
  | .iscZp b => iscZp b
  | .inx => inx
  | .sbcImm b => sbcImm b
  | .nop => nop
  | .usbcImm b => usbcImm b
  | .cpxAbs lo hi => cpxAbs lo hi
  | .sbcAbs lo hi => sbcAbs lo hi
  | .incAbs lo hi => incAbs lo hi
  | .iscAbs lo hi => iscAbs lo hi
  | .beq off => beq off
  | .sbcIzy b => sbcIzy b
  | .jamF2 => jamF2
  | .iscIzy b => iscIzy b
  | .nopZpxF4 b => nopZpxF4 b
  | .sbcZpx b => sbcZpx b
  | .incZpx b => incZpx b
  | .iscZpx b => iscZpx b
  | .sed => sed
  | .sbcAby lo hi => sbcAby lo hi
  | .nopImpFA => nopImpFA
  | .iscAby lo hi => iscAby lo hi
  | .nopAbxFC lo hi => nopAbxFC lo hi
  | .sbcAbx lo hi => sbcAbx lo hi
  | .incAbx lo hi => incAbx lo hi
  | .iscAbx lo hi => iscAbx lo hi

end Laws.FormOfOpcode

end Sys2Proof
end

