-- ==== Sys2Proof/Laws/Step.lean ====
section
/-! SUPPORT. What surrounds a meaning in a step, said once: fetching from storage, OAM DMA, one PPU or APU tick, and the ticks owed for a
CPU step. -/

namespace Sys2Proof.Machine

/-! ### Fetching -/

/-- A fetch from storage. -/
theorem State.fetchByte_of_byteAt {s : State} {v : Byte} (h : s.bus.byteAt s.cpu.pc = some v) :
    s.fetchByte = (v, fetched [v] s) := by
  simp only [State.fetchByte, State.read, Bus.read_storage h, fetched, State.withBus, State.setPc, State.withCpu]

theorem fetched_byteAt (bytes : List Byte) (s : State) (a : Addr) : (fetched bytes s).bus.byteAt a = s.bus.byteAt a := by
  induction bytes generalizing s with
  | nil => rfl
  | cons v rest ih => exact (ih _).trans rfl

theorem fetched_pc (bytes : List Byte) (s : State) : (fetched bytes s).cpu.pc = s.cpu.pc + cell bytes.length := by
  induction bytes generalizing s with
  | nil => exact (BitVec.add_zero _).symm
  | cons v rest ih =>
    refine (ih _).trans ?_
    apply BitVec.eq_of_toNat_eq
    simp only [BitVec.toNat_add, cell_toNat, List.length_cons]
    show ((s.cpu.pc.toNat + 1) % 65536 + rest.length % 65536) % 65536 = (s.cpu.pc.toNat + (rest.length + 1) % 65536) % 65536
    omega

theorem fetched_append (bytes more : List Byte) (s : State) : fetched (bytes ++ more) s = fetched more (fetched bytes s) := by
  induction bytes generalizing s with
  | nil => rfl
  | cons v rest ih => exact ih _

theorem fetched_follows (bytes : List Byte) (s : State) : s.Follows (fetched bytes s) := by
  induction bytes generalizing s with
  | nil => exact .refl s
  | cons v rest ih =>
    refine State.Follows.trans ?_ (ih _)
    exact ⟨⟨rfl, rfl, rfl, rfl, rfl, id, Nat.le_succ _⟩, rfl, rfl, rfl, rfl, rfl, rfl⟩

/-- Fetching moves PC and no other CPU register. -/
theorem fetched_cpu (bytes : List Byte) (s : State) : (fetched bytes s).cpu = { s.cpu with pc := (fetched bytes s).cpu.pc } := by
  induction bytes generalizing s with
  | nil => rfl
  | cons v rest ih => exact (ih _).trans rfl

/-- The CPU registers on which the meaning of an instruction runs: those of before the step, but for PC and `poll_suppress`. -/
theorem ready_cpu (i : Instr) (s : State) : (ready i s).cpu = { s.cpu with pollSuppress := false, pc := (ready i s).cpu.pc } :=
  fetched_cpu _ _

theorem fetchedFirst_of_ne {i : Instr} (h : ∀ l k, i ≠ .jsrAbs l k) : fetchedFirst i = encode i := by
  unfold fetchedFirst
  split
  · exact absurd rfl (h _ _)
  · rfl

/-- A fetch after some bytes have been fetched. -/
theorem State.fetchByte_after {s : State} {v : Byte} (bytes : List Byte)
    (h : s.bus.byteAt (s.cpu.pc + cell bytes.length) = some v) :
    (fetched bytes s).fetchByte = (v, fetched (bytes ++ [v]) s) := by
  rw [State.fetchByte_of_byteAt, fetched_append]
  rw [fetched_byteAt, fetched_pc, h]

/-- JSR's is the one form whose last byte its meaning fetches (45 R212). -/
theorem opcodeMap_late : ∀ op : Byte, (∃ make, opcodeMap op = .threeLate make) → op = 0x20 := by
  have h : ∀ op : Byte, (match opcodeMap op with | .threeLate _ => true | _ => false) = true → op = 0x20 := by decide
  intro op hop
  obtain ⟨make, hm⟩ := hop
  apply h
  rw [hm]

/-- Fetching an instruction whose bytes lie in storage at PC. -/
theorem State.fetchInstr_of_code {i : Instr} {s : State}
    (h : ∀ (k : Nat) (hk : k < (encode i).length), s.bus.byteAt (s.cpu.pc + cell k) = some (encode i)[k]) :
    s.fetchInstr = (i, fetched (fetchedFirst i) s) := by
  obtain ⟨op, operands, he, hm⟩ := Laws.FormOfOpcode.of_instr i
  have h0 : s.bus.byteAt s.cpu.pc = some op := by
    have := h 0 (by rw [he]; exact Nat.succ_pos _)
    simpa only [he, cell, BitVec.ofNat_eq_ofNat, BitVec.add_zero, List.getElem_cons_zero] using this
  rw [State.fetchInstr, State.fetchByte_of_byteAt h0]
  dsimp only
  have hne : op ≠ 0x20 → fetchedFirst i = encode i := by
    intro hop
    apply fetchedFirst_of_ne
    rintro l k rfl
    rw [encode] at he
    injection he with h1 _
    exact hop h1.symm
  cases hf : opcodeMap op with
  | one j =>
    rw [hf] at hm
    obtain ⟨rfl, rfl⟩ := hm
    rw [hne, he]
    rintro rfl
    cases hf
  | two make =>
    rw [hf] at hm
    obtain ⟨b, rfl, rfl⟩ := hm
    have h1 := h 1 (by simp [he])
    simp only [he, List.getElem_cons_succ, List.getElem_cons_zero] at h1
    rw [hne, he]
    · simp only [State.fetchByte_after [op] h1]
      rfl
    · rintro rfl
      cases hf
  | three make =>
    rw [hf] at hm
    obtain ⟨l, k, rfl, rfl⟩ := hm
    have h1 := h 1 (by simp [he])
    have h2 := h 2 (by simp [he])
    simp only [he, List.getElem_cons_succ, List.getElem_cons_zero] at h1 h2
    rw [hne, he]
    · simp only [State.fetchByte_after [op] h1]
      simp only [List.cons_append, List.nil_append, State.fetchByte_after [op, l] h2]
    · rintro rfl
      cases hf
  | threeLate make =>
    obtain rfl := opcodeMap_late op ⟨make, hf⟩
    rw [hf] at hm
    obtain ⟨l, k, rfl, rfl⟩ := hm
    have h1 := h 1 (by simp [he])
    have h2 := h 2 (by simp [he])
    simp only [he, List.getElem_cons_succ, List.getElem_cons_zero] at h1 h2
    cases hf
    simp only [State.fetchByte_after [0x20] h1, fetchedFirst]
    have : ((fetched [0x20, l] s).bus.peek (fetched [0x20, l] s).cpu.pc) = k := by
      rw [Bus.peek, fetched_pc]
      exact Bus.read_of_byteAt ((fetched_byteAt _ _ _).trans h2)
    simp only [List.cons_append, List.nil_append, this]

/-- Fetching keeps what an access keeps, whatever lies at PC. -/
theorem State.fetchInstr_follows (s : State) : s.Follows s.fetchInstr.2 := by
  unfold State.fetchInstr
  dsimp only
  cases opcodeMap s.fetchByte.1 with
  | one i => exact s.fetchByte_follows
  | two make => exact s.fetchByte_follows.trans (State.fetchByte_follows _)
  | three make => exact (s.fetchByte_follows.trans (State.fetchByte_follows _)).trans (State.fetchByte_follows _)
  | threeLate make => exact s.fetchByte_follows.trans (State.fetchByte_follows _)

theorem State.fetchInstr_log (s : State) : s.bus.log.length < s.fetchInstr.2.bus.log.length := by
  unfold State.fetchInstr
  dsimp only
  cases opcodeMap s.fetchByte.1 with
  | one i => exact Nat.lt_succ_self _
  | two make =>
    have := s.fetchByte.2.fetchByte_follows.bus.log
    exact Nat.lt_of_lt_of_le (Nat.lt_succ_self _) this
  | three make =>
    have := (s.fetchByte.2.fetchByte_follows.trans (State.fetchByte_follows _)).bus.log
    exact Nat.lt_of_lt_of_le (Nat.lt_succ_self _) this
  | threeLate make =>
    have := s.fetchByte.2.fetchByte_follows.bus.log
    exact Nat.lt_of_lt_of_le (Nat.lt_succ_self _) this

/-! ### OAM DMA -/

theorem Bus.dmaCopy_follows (page : Byte) (n : Nat) (b : Bus) : b.Follows (Bus.dmaCopy page n b) := by
  induction n generalizing b with
  | zero => exact .refl b
  | succ n ih => exact ((b.read_follows _).trans (Bus.write_follows _ _ _)).trans (ih _)

theorem State.runDma_none {s : State} (h : s.bus.dmaRequest = none) : s.runDma = s := by
  rw [State.runDma, h]

/-- What a DMA, run or not, does to the state: accesses, no request left, and the same number of cycles in both counts. -/
theorem State.runDma_keeps (s : State) :
    s.bus.Follows s.runDma.bus ∧ s.runDma.bus.dmaRequest = none ∧ s.runDma.params = s.params ∧ s.runDma.dotFrac = s.dotFrac ∧
      ∃ n, s.runDma.cpu = { s.cpu with cycles := s.cpu.cycles + n } ∧ s.runDma.stepCycles = s.stepCycles + n := by
  unfold State.runDma
  cases h : s.bus.dmaRequest with
  | none => exact ⟨.refl _, h, rfl, rfl, 0, rfl, rfl⟩
  | some page =>
    have hf := Bus.dmaCopy_follows page 256 s.bus
    exact ⟨⟨hf.mapper, hf.scanline, hf.dot, hf.ppuTicks, hf.apuTicks, hf.wf, hf.log⟩, rfl, rfl, rfl, _, rfl, rfl⟩

/-! ### One CPU step -/

theorem State.interruptSequence_keeps (k : Interrupt) (s : State) :
    s.bus.Follows (s.interruptSequence k).bus ∧ (s.interruptSequence k).params = s.params ∧
      (s.interruptSequence k).dotFrac = s.dotFrac ∧ (s.interruptSequence k).cpu.nmiPrev = s.cpu.nmiPrev ∧
      (s.interruptSequence k).cpu.cycles = s.cpu.cycles := by
  have hi : s.Follows s.idle.idle := (s.idle_follows).trans (State.idle_follows _)
  cases k with
  | nmi =>
    have he := State.enterInterrupt_follows false nmiVector (s.idle.idle.withCpu { s.idle.idle.cpu with nmiPending := false })
    exact ⟨hi.bus.trans he.bus, he.params.trans hi.params, he.dotFrac.trans hi.dotFrac, he.nmiPrev.trans hi.nmiPrev,
      he.cycles.trans hi.cycles⟩
  | irq =>
    have h := hi.trans (State.enterInterrupt_follows false irqVector s.idle.idle)
    exact ⟨h.bus, h.params, h.dotFrac, h.nmiPrev, h.cycles⟩

theorem State.interruptSequence_log (k : Interrupt) (s : State) : s.bus.log.length < (s.interruptSequence k).bus.log.length := by
  have h : s.idle.Follows s.idle.idle := State.idle_follows _
  cases k with
  | nmi =>
    have he := State.enterInterrupt_follows false nmiVector (s.idle.idle.withCpu { s.idle.idle.cpu with nmiPending := false })
    exact (h.bus.trans he.bus).log
  | irq => exact (h.trans (State.enterInterrupt_follows false irqVector s.idle.idle)).bus.log

theorem State.suppressedPush_follows (s : State) : s.Follows s.suppressedPush :=
  (s.read_follows _).trans (State.withCpu_follows rfl rfl rfl rfl)

theorem State.resetSequence_keeps (s : State) :
    s.bus.Follows s.resetSequence.bus ∧ s.resetSequence.params = s.params ∧ s.resetSequence.dotFrac = s.dotFrac ∧
      s.resetSequence.cpu.nmiPrev = s.cpu.nmiPrev ∧ s.resetSequence.cpu.cycles = s.cpu.cycles ∧
      s.bus.log.length < s.resetSequence.bus.log.length := by
  let c := s.withCpu { s.cpu with resetPending := false, nmiPending := false, jammed := false }
  have h1 : c.idle.Follows c.idle.idle.suppressedPush.suppressedPush.suppressedPush :=
    (((c.idle.idle_follows).trans (State.suppressedPush_follows _)).trans (State.suppressedPush_follows _)).trans
      (State.suppressedPush_follows _)
  have h2 : c.idle.Follows s.resetSequence := by
    refine State.Follows.trans ?_ (State.withCpu_follows rfl rfl rfl rfl)
    refine State.Follows.trans ?_ (State.loadVector_follows _ _)
    exact h1.trans (State.setFlags_follows _ _)
  have h0 : c.Follows c.idle := c.idle_follows
  have h := h0.trans h2
  exact ⟨h.bus, h.params, h.dotFrac, h.nmiPrev, h.cycles, h2.bus.log⟩

/-- Everything that holds of every completed CPU step: it makes accesses and changes CPU registers; no DMA request is left, and `cycles` grows
by the step's own count, which is at least 1. -/
structure StepKeeps (s t : State) : Prop where
  mapper : t.bus.mapper = s.bus.mapper
  scanline : t.bus.ppu.scanline = s.bus.ppu.scanline
  dot : t.bus.ppu.dot = s.bus.ppu.dot
  ppuTicks : t.bus.ppu.ticks = s.bus.ppu.ticks
  apuTicks : t.bus.apu.ticks = s.bus.apu.ticks
  wf : s.bus.storesWf → t.bus.storesWf
  params : t.params = s.params
  dotFrac : t.dotFrac = s.dotFrac
  dmaRequest : t.bus.dmaRequest = none
  nmiPrev : t.cpu.nmiPrev = s.cpu.nmiPrev
  cycles : t.cpu.cycles = s.cpu.cycles + t.stepCycles
  positive : 1 ≤ t.stepCycles

/-- The end of a step that has made accesses since its beginning. -/
theorem StepKeeps.of_accesses {s t : State} (hb : s.beginStep.bus.Follows t.bus) (hp : t.params = s.params) (hd : t.dotFrac = s.dotFrac)
    (hn : t.cpu.nmiPrev = s.cpu.nmiPrev) (hc : t.cpu.cycles = s.cpu.cycles) (hl : 1 ≤ t.bus.log.length) :
    StepKeeps s t.countCycles.runDma := by
  obtain ⟨kb, kd, kp, kf, n, kc, ks⟩ := t.countCycles.runDma_keeps
  have h := hb.trans kb
  refine ⟨h.mapper, h.scanline, h.dot, h.ppuTicks, h.apuTicks, h.wf, kp.trans hp, kf.trans hd, kd, ?_, ?_, ?_⟩
  · rw [kc]
    exact hn
  · rw [kc, ks]
    show t.cpu.cycles + _ + n = _ + (_ + n)
    rw [hc, Nat.add_assoc]
    rfl
  · rw [ks]
    exact Nat.le_trans hl (Nat.le_add_right _ _)

/-- The reset sequence makes no write, so it requests no DMA. -/
theorem State.resetSequence_dmaRequest (s : State) : s.resetSequence.bus.dmaRequest = s.bus.dmaRequest := by
  simp only [State.resetSequence, State.loadVector, State.suppressedPush, State.idle, State.dummyRead, State.read,
    State.withBus_bus, State.withCpu_bus, State.setFlags_bus, State.setPc_bus, Bus.read_dmaRequest]

theorem cpuStep_keeps {s t : State} (h : cpuStep s = .next t) : StepKeeps s t := by
  unfold cpuStep at h
  dsimp only at h
  split at h
  · obtain ⟨hb, hp, hd, hn, hc, hl⟩ := s.beginStep.resetSequence_keeps
    have hk := StepKeeps.of_accesses hb hp hd hn hc (Nat.lt_of_le_of_lt (Nat.zero_le _) hl)
    rw [State.runDma_none (s := s.beginStep.resetSequence.countCycles) s.beginStep.resetSequence_dmaRequest] at hk
    cases h
    exact hk
  · split at h
    · cases h
      exact ⟨rfl, rfl, rfl, rfl, rfl, id, rfl, rfl, rfl, rfl, rfl, Nat.le_refl 1⟩
    · split at h
      · rename_i k _
        obtain ⟨hb, hp, hd, hn, hc⟩ :=
          (s.beginStep.withCpu { s.beginStep.cpu with pollSuppress := false }).interruptSequence_keeps k
        cases h
        refine StepKeeps.of_accesses hb hp hd hn hc ?_
        exact Nat.lt_of_le_of_lt (Nat.zero_le _) (State.interruptSequence_log k _)
      · unfold State.runInstruction at h
        dsimp only at h
        split at h
        · split at h
          · rename_i hu
            cases h
            have hf := (State.fetchInstr_follows (s.beginStep.withCpu { s.beginStep.cpu with pollSuppress := false })).trans
              (follows_of_exec hu)
            have hl := Nat.lt_of_lt_of_le
              (State.fetchInstr_log (s.beginStep.withCpu { s.beginStep.cpu with pollSuppress := false })) (follows_of_exec hu).bus.log
            unfold State.endInstruction
            dsimp only
            split
            · exact StepKeeps.of_accesses hf.bus hf.params hf.dotFrac hf.nmiPrev hf.cycles (Nat.lt_of_le_of_lt (Nat.zero_le _) hl)
            · exact StepKeeps.of_accesses hf.bus hf.params hf.dotFrac hf.nmiPrev hf.cycles (Nat.lt_of_le_of_lt (Nat.zero_le _) hl)
          · cases h
          · cases h
        · cases h

/-- A CPU step that runs an instruction is its meaning, then the end of the step. -/
theorem cpuStep_of_runs {i : Instr} {s t : State} (h : Runs i s) (he : exec i (ready i s) = .next t) :
    cpuStep s = .next (t.endInstruction i) := by
  have hp : s.beginStep.poll = none := h.noInterrupt
  have hw : WellFormed (started s).params.policy i = true := h.meaning
  unfold cpuStep
  dsimp only
  rw [if_neg (by simp [State.beginStep, h.noReset]), if_neg (by simp [State.beginStep, h.notJammed]), hp]
  show State.runInstruction (started s) = _
  unfold State.runInstruction
  rw [State.fetchInstr_of_code (i := i) (s := started s) h.code]
  simp only [hw, if_true]
  show (match exec i (ready i s) with | .next t => _ | .fault r => _ | .refused r => _) = _
  rw [he]

/-- The end of an instruction's step writes `i_poll` and `cycles`, and no other CPU register. -/
theorem State.endInstruction_cpu (i : Instr) (s : State) : ∃ n, (s.endInstruction i).cpu =
    { s.cpu with iPoll := if Instr.delaysPoll i then s.cpu.iPoll else s.cpu.p.i, cycles := s.cpu.cycles + n } := by
  unfold State.endInstruction
  dsimp only
  split
  · obtain ⟨-, -, -, -, n, hc, -⟩ := s.countCycles.runDma_keeps
    exact ⟨_, hc.trans (by simp [State.countCycles, Nat.add_assoc]; rfl)⟩
  · obtain ⟨-, -, -, -, n, hc, -⟩ := (s.withCpu { s.cpu with iPoll := s.cpu.p.i }).countCycles.runDma_keeps
    exact ⟨_, hc.trans (by simp [State.countCycles, Nat.add_assoc]; rfl)⟩

/-! ### Device ticks -/

theorem PpuState.raiseFlags_frame (p : PpuState) :
    p.raiseFlags = { p with
      vblank := p.raiseFlags.vblank, sprite0Hit := p.raiseFlags.sprite0Hit, spriteOverflow := p.raiseFlags.spriteOverflow } := by
  unfold PpuState.raiseFlags
  split
  · rfl
  · split <;> rfl

/-- A PPU tick keeps the position in its bounds, the registers and OAM, and counts itself (60_exceptions R323). -/
theorem PpuState.tick_keeps (region : Region) (p : PpuState) :
    (p.tick region).ticks = p.ticks + 1 ∧ (p.tick region).oam = p.oam ∧ (p.tick region).ctrl = p.ctrl ∧
      (p.tick region).mask = p.mask ∧ (p.tick region).oamAddr = p.oamAddr ∧
      (p.inBounds region → (p.tick region).inBounds region) := by
  have hl : (260 : Int) ≤ lastLine region := by cases region <;> decide
  unfold PpuState.tick
  rw [p.raiseFlags_frame]
  dsimp only [PpuState.render]
  split
  · unfold PpuState.nextLine
    dsimp only
    split
    · refine ⟨rfl, rfl, rfl, rfl, rfl, fun h => ⟨?_, ?_, ?_⟩⟩
      · exact Int.le_refl _
      · show (-1 : Int) ≤ _
        omega
      · exact Nat.zero_le _
    · rename_i hne
      refine ⟨rfl, rfl, rfl, rfl, rfl, fun h => ⟨?_, ?_, ?_⟩⟩
      · show (-1 : Int) ≤ p.scanline + 1
        have := h.1
        omega
      · show p.scanline + 1 ≤ lastLine region
        have := h.2.1
        omega
      · exact Nat.zero_le _
  · rename_i hne
    refine ⟨rfl, rfl, rfl, rfl, rfl, fun h => ⟨h.1, h.2.1, ?_⟩⟩
    show p.dot + 1 ≤ 340
    have h340 : p.dot ≠ 340 := by
      intro e
      apply hne
      unfold PpuState.atLineEnd
      simp [e]
    have := h.2.2
    omega

/-- What the ticks owed for a CPU step change and keep (60_exceptions R330, R331). -/
structure DevicesKeep (s t : State) (ppu apu : Nat) : Prop where
  ram : t.bus.ram = s.bus.ram
  mapper : t.bus.mapper = s.bus.mapper
  openBus : t.bus.openBus = s.bus.openBus
  log : t.bus.log = s.bus.log
  strobe : t.bus.strobe = s.bus.strobe
  dmaRequest : t.bus.dmaRequest = s.bus.dmaRequest
  deviceReads : t.bus.deviceReads = s.bus.deviceReads
  channels : t.bus.apu.channels = s.bus.apu.channels
  oam : t.bus.ppu.oam = s.bus.ppu.oam
  ppuTicks : t.bus.ppu.ticks = s.bus.ppu.ticks + ppu
  apuTicks : t.bus.apu.ticks = s.bus.apu.ticks + apu
  bounds : s.bus.ppu.inBounds s.params.region → t.bus.ppu.inBounds t.params.region
  cpu : t.cpu = { s.cpu with nmiPending := t.cpu.nmiPending, nmiPrev := t.cpu.nmiPrev }
  params : t.params = s.params
  stepCycles : t.stepCycles = s.stepCycles
  dotFrac : t.dotFrac = s.dotFrac

theorem DevicesKeep.trans {s t u : State} {m n j k : Nat} (h : DevicesKeep s t m n) (g : DevicesKeep t u j k) :
    DevicesKeep s u (m + j) (n + k) where
  ram := g.ram.trans h.ram
  mapper := g.mapper.trans h.mapper
  openBus := g.openBus.trans h.openBus
  log := g.log.trans h.log
  strobe := g.strobe.trans h.strobe
  dmaRequest := g.dmaRequest.trans h.dmaRequest
  deviceReads := g.deviceReads.trans h.deviceReads
  channels := g.channels.trans h.channels
  oam := g.oam.trans h.oam
  ppuTicks := by rw [g.ppuTicks, h.ppuTicks, Nat.add_assoc]
  apuTicks := by rw [g.apuTicks, h.apuTicks, Nat.add_assoc]
  bounds := g.bounds ∘ h.bounds
  cpu := by rw [g.cpu, h.cpu]
  params := g.params.trans h.params
  stepCycles := g.stepCycles.trans h.stepCycles
  dotFrac := g.dotFrac.trans h.dotFrac

theorem State.ppuTick_keeps (s : State) : DevicesKeep s s.ppuTick 1 0 := by
  have hm : s.ppuTick.bus.mapper = s.bus.mapper := by
    show (if s.bus.ppu.atLineEnd s.params.region then s.bus.mapper.scanlineTick else s.bus.mapper) = s.bus.mapper
    split <;> rfl
  have hk := s.bus.ppu.tick_keeps s.params.region
  exact ⟨rfl, hm, rfl, rfl, rfl, rfl, rfl, rfl, hk.2.1, hk.1, rfl, hk.2.2.2.2.2, rfl, rfl, rfl, rfl⟩

theorem State.apuTick_keeps (s : State) : DevicesKeep s s.apuTick 0 1 :=
  ⟨rfl, rfl, rfl, rfl, rfl, rfl, rfl, rfl, rfl, rfl, rfl, id, rfl, rfl, rfl, rfl⟩

theorem DevicesKeep.refl (s : State) : DevicesKeep s s 0 0 :=
  ⟨rfl, rfl, rfl, rfl, rfl, rfl, rfl, rfl, rfl, rfl, rfl, id, rfl, rfl, rfl, rfl⟩

theorem repeatTick_ppu (n : Nat) (s : State) : DevicesKeep s (repeatTick State.ppuTick n s) n 0 := by
  induction n generalizing s with
  | zero => exact .refl s
  | succ n ih =>
    have h := s.ppuTick_keeps.trans (ih _)
    rw [Nat.add_comm 1 n] at h
    exact h

theorem repeatTick_apu (n : Nat) (s : State) : DevicesKeep s (repeatTick State.apuTick n s) 0 n := by
  induction n generalizing s with
  | zero => exact .refl s
  | succ n ih =>
    have h := s.apuTick_keeps.trans (ih _)
    rw [Nat.add_comm 1 n] at h
    exact h

theorem State.runDevices_keeps (s : State) :
    DevicesKeep { s with dotFrac := nextDotFrac s.params.region s.dotFrac s.stepCycles } s.runDevices
      (ppuTicks s.params.region s.dotFrac s.stepCycles) s.stepCycles := by
  have h := (repeatTick_ppu (ppuTicks s.params.region s.dotFrac s.stepCycles)
    { s with dotFrac := nextDotFrac s.params.region s.dotFrac s.stepCycles }).trans (repeatTick_apu s.stepCycles _)
  rw [Nat.add_zero, Nat.zero_add] at h
  exact h

theorem nextDotFrac_lt {region : Region} {f : Nat} (n : Nat) (h : f < 5) : nextDotFrac region f n < 5 := by
  cases region with
  | ntsc => exact h
  | pal => exact Nat.mod_lt _ (by decide)

/-! ### One step -/

/-- A completed step is a completed CPU step from a PPU position in its bounds, then the ticks owed for it. -/
theorem step_next_iff {s t : State} :
    step s = .next t ↔ s.bus.ppu.inBounds s.params.region ∧ ∃ u, cpuStep s = .next u ∧ t = u.runDevices := by
  unfold step
  constructor
  · intro h
    split at h
    · rename_i hb
      split at h
      · cases h
        exact ⟨hb, _, by assumption, rfl⟩
      · cases h
      · cases h
    · cases h
  · rintro ⟨hb, u, hu, rfl⟩
    rw [if_pos hb, hu]

end Sys2Proof.Machine
end

