-- ==== Sys2Proof/Tests/Slice0.lean ====
section
/-! SUPPORT. Tests: well-formedness, decoding of hand-written words, one step of each mnemonic against the spec's test vectors
(95_test_vectors), and a witness for the hypotheses of each obligation. -/

namespace Sys2Proof.Tests

open Sys2Proof.Machine

/-! ### Well-formedness (30_encoding R86) -/

/-- An unstable opcode under the default policy. -/
theorem test_wf_stable_refuses_unstable : WellFormed .stable (.aneImm 0x00) = false := by decide
theorem test_wf_stable_refuses_sha : WellFormed .stable (.shaIzy 0x10) = false := by decide
/-- A stable undocumented opcode and a JAM under the narrowest policy. -/
theorem test_wf_documented_refuses_stable : WellFormed .documentedOnly (.laxZp 0x10) = false := by decide
theorem test_wf_documented_refuses_jam : WellFormed .documentedOnly .jam02 = false := by decide
theorem test_wf_documented_refuses_usbc : WellFormed .documentedOnly (.usbcImm 0x01) = false := by decide
theorem test_wf_accepts :
    WellFormed .documentedOnly (.sbcImm 0x01) = true ∧ WellFormed .stable .jam02 = true ∧ WellFormed .full (.tasAby 0 0) = true := by decide

/-! ### Decoding: every constructor, by a word written from the opcode map -/

/-- Row $0x of the opcode map (30_encoding R84). -/
theorem test_decode_row0 :
    decode [0x00] = .ok (.brk, []) ∧
    decode [0x01, 0x12] = .ok (.oraIzx 0x12, []) ∧
    decode [0x02] = .ok (.jam02, []) ∧
    decode [0x03, 0x12] = .ok (.sloIzx 0x12, []) ∧
    decode [0x04, 0x12] = .ok (.nopZp04 0x12, []) ∧
    decode [0x05, 0x12] = .ok (.oraZp 0x12, []) ∧
    decode [0x06, 0x12] = .ok (.aslZp 0x12, []) ∧
    decode [0x07, 0x12] = .ok (.sloZp 0x12, []) ∧
    decode [0x08] = .ok (.php, []) ∧
    decode [0x09, 0x12] = .ok (.oraImm 0x12, []) ∧
    decode [0x0A] = .ok (.aslAcc, []) ∧
    decode [0x0B, 0x12] = .ok (.anc0B 0x12, []) ∧
    decode [0x0C, 0x34, 0x12] = .ok (.nopAbs0C 0x34 0x12, []) ∧
    decode [0x0D, 0x34, 0x12] = .ok (.oraAbs 0x34 0x12, []) ∧
    decode [0x0E, 0x34, 0x12] = .ok (.aslAbs 0x34 0x12, []) ∧
    decode [0x0F, 0x34, 0x12] = .ok (.sloAbs 0x34 0x12, []) :=
  ⟨rfl, rfl, rfl, rfl, rfl, rfl, rfl, rfl, rfl, rfl, rfl, rfl, rfl, rfl, rfl, rfl⟩

/-- Row $1x of the opcode map (30_encoding R84). -/
theorem test_decode_row1 :
    decode [0x10, 0x12] = .ok (.bpl 0x12, []) ∧
    decode [0x11, 0x12] = .ok (.oraIzy 0x12, []) ∧
    decode [0x12] = .ok (.jam12, []) ∧
    decode [0x13, 0x12] = .ok (.sloIzy 0x12, []) ∧
    decode [0x14, 0x12] = .ok (.nopZpx14 0x12, []) ∧
    decode [0x15, 0x12] = .ok (.oraZpx 0x12, []) ∧
    decode [0x16, 0x12] = .ok (.aslZpx 0x12, []) ∧
    decode [0x17, 0x12] = .ok (.sloZpx 0x12, []) ∧
    decode [0x18] = .ok (.clc, []) ∧
    decode [0x19, 0x34, 0x12] = .ok (.oraAby 0x34 0x12, []) ∧
    decode [0x1A] = .ok (.nopImp1A, []) ∧
    decode [0x1B, 0x34, 0x12] = .ok (.sloAby 0x34 0x12, []) ∧
    decode [0x1C, 0x34, 0x12] = .ok (.nopAbx1C 0x34 0x12, []) ∧
    decode [0x1D, 0x34, 0x12] = .ok (.oraAbx 0x34 0x12, []) ∧
    decode [0x1E, 0x34, 0x12] = .ok (.aslAbx 0x34 0x12, []) ∧
    decode [0x1F, 0x34, 0x12] = .ok (.sloAbx 0x34 0x12, []) :=
  ⟨rfl, rfl, rfl, rfl, rfl, rfl, rfl, rfl, rfl, rfl, rfl, rfl, rfl, rfl, rfl, rfl⟩

/-- Row $2x of the opcode map (30_encoding R84). -/
theorem test_decode_row2 :
    decode [0x20, 0x34, 0x12] = .ok (.jsrAbs 0x34 0x12, []) ∧
    decode [0x21, 0x12] = .ok (.andIzx 0x12, []) ∧
    decode [0x22] = .ok (.jam22, []) ∧
    decode [0x23, 0x12] = .ok (.rlaIzx 0x12, []) ∧
    decode [0x24, 0x12] = .ok (.bitZp 0x12, []) ∧
    decode [0x25, 0x12] = .ok (.andZp 0x12, []) ∧
    decode [0x26, 0x12] = .ok (.rolZp 0x12, []) ∧
    decode [0x27, 0x12] = .ok (.rlaZp 0x12, []) ∧
    decode [0x28] = .ok (.plp, []) ∧
    decode [0x29, 0x12] = .ok (.andImm 0x12, []) ∧
    decode [0x2A] = .ok (.rolAcc, []) ∧
    decode [0x2B, 0x12] = .ok (.anc2B 0x12, []) ∧
    decode [0x2C, 0x34, 0x12] = .ok (.bitAbs 0x34 0x12, []) ∧
    decode [0x2D, 0x34, 0x12] = .ok (.andAbs 0x34 0x12, []) ∧
    decode [0x2E, 0x34, 0x12] = .ok (.rolAbs 0x34 0x12, []) ∧
    decode [0x2F, 0x34, 0x12] = .ok (.rlaAbs 0x34 0x12, []) :=
  ⟨rfl, rfl, rfl, rfl, rfl, rfl, rfl, rfl, rfl, rfl, rfl, rfl, rfl, rfl, rfl, rfl⟩

/-- Row $3x of the opcode map (30_encoding R84). -/
theorem test_decode_row3 :
    decode [0x30, 0x12] = .ok (.bmi 0x12, []) ∧
    decode [0x31, 0x12] = .ok (.andIzy 0x12, []) ∧
    decode [0x32] = .ok (.jam32, []) ∧
    decode [0x33, 0x12] = .ok (.rlaIzy 0x12, []) ∧
    decode [0x34, 0x12] = .ok (.nopZpx34 0x12, []) ∧
    decode [0x35, 0x12] = .ok (.andZpx 0x12, []) ∧
    decode [0x36, 0x12] = .ok (.rolZpx 0x12, []) ∧
    decode [0x37, 0x12] = .ok (.rlaZpx 0x12, []) ∧
    decode [0x38] = .ok (.sec, []) ∧
    decode [0x39, 0x34, 0x12] = .ok (.andAby 0x34 0x12, []) ∧
    decode [0x3A] = .ok (.nopImp3A, []) ∧
    decode [0x3B, 0x34, 0x12] = .ok (.rlaAby 0x34 0x12, []) ∧
    decode [0x3C, 0x34, 0x12] = .ok (.nopAbx3C 0x34 0x12, []) ∧
    decode [0x3D, 0x34, 0x12] = .ok (.andAbx 0x34 0x12, []) ∧
    decode [0x3E, 0x34, 0x12] = .ok (.rolAbx 0x34 0x12, []) ∧
    decode [0x3F, 0x34, 0x12] = .ok (.rlaAbx 0x34 0x12, []) :=
  ⟨rfl, rfl, rfl, rfl, rfl, rfl, rfl, rfl, rfl, rfl, rfl, rfl, rfl, rfl, rfl, rfl⟩

/-- Row $4x of the opcode map (30_encoding R84). -/
theorem test_decode_row4 :
    decode [0x40] = .ok (.rti, []) ∧
    decode [0x41, 0x12] = .ok (.eorIzx 0x12, []) ∧
    decode [0x42] = .ok (.jam42, []) ∧
    decode [0x43, 0x12] = .ok (.sreIzx 0x12, []) ∧
    decode [0x44, 0x12] = .ok (.nopZp44 0x12, []) ∧
    decode [0x45, 0x12] = .ok (.eorZp 0x12, []) ∧
    decode [0x46, 0x12] = .ok (.lsrZp 0x12, []) ∧
    decode [0x47, 0x12] = .ok (.sreZp 0x12, []) ∧
    decode [0x48] = .ok (.pha, []) ∧
    decode [0x49, 0x12] = .ok (.eorImm 0x12, []) ∧
    decode [0x4A] = .ok (.lsrAcc, []) ∧
    decode [0x4B, 0x12] = .ok (.alrImm 0x12, []) ∧
    decode [0x4C, 0x34, 0x12] = .ok (.jmpAbs 0x34 0x12, []) ∧
    decode [0x4D, 0x34, 0x12] = .ok (.eorAbs 0x34 0x12, []) ∧
    decode [0x4E, 0x34, 0x12] = .ok (.lsrAbs 0x34 0x12, []) ∧
    decode [0x4F, 0x34, 0x12] = .ok (.sreAbs 0x34 0x12, []) :=
  ⟨rfl, rfl, rfl, rfl, rfl, rfl, rfl, rfl, rfl, rfl, rfl, rfl, rfl, rfl, rfl, rfl⟩

/-- Row $5x of the opcode map (30_encoding R84). -/
theorem test_decode_row5 :
    decode [0x50, 0x12] = .ok (.bvc 0x12, []) ∧
    decode [0x51, 0x12] = .ok (.eorIzy 0x12, []) ∧
    decode [0x52] = .ok (.jam52, []) ∧
    decode [0x53, 0x12] = .ok (.sreIzy 0x12, []) ∧
    decode [0x54, 0x12] = .ok (.nopZpx54 0x12, []) ∧
    decode [0x55, 0x12] = .ok (.eorZpx 0x12, []) ∧
    decode [0x56, 0x12] = .ok (.lsrZpx 0x12, []) ∧
    decode [0x57, 0x12] = .ok (.sreZpx 0x12, []) ∧
    decode [0x58] = .ok (.cli, []) ∧
    decode [0x59, 0x34, 0x12] = .ok (.eorAby 0x34 0x12, []) ∧
    decode [0x5A] = .ok (.nopImp5A, []) ∧
    decode [0x5B, 0x34, 0x12] = .ok (.sreAby 0x34 0x12, []) ∧
    decode [0x5C, 0x34, 0x12] = .ok (.nopAbx5C 0x34 0x12, []) ∧
    decode [0x5D, 0x34, 0x12] = .ok (.eorAbx 0x34 0x12, []) ∧
    decode [0x5E, 0x34, 0x12] = .ok (.lsrAbx 0x34 0x12, []) ∧
    decode [0x5F, 0x34, 0x12] = .ok (.sreAbx 0x34 0x12, []) :=
  ⟨rfl, rfl, rfl, rfl, rfl, rfl, rfl, rfl, rfl, rfl, rfl, rfl, rfl, rfl, rfl, rfl⟩

/-- Row $6x of the opcode map (30_encoding R84). -/
theorem test_decode_row6 :
    decode [0x60] = .ok (.rts, []) ∧
    decode [0x61, 0x12] = .ok (.adcIzx 0x12, []) ∧
    decode [0x62] = .ok (.jam62, []) ∧
    decode [0x63, 0x12] = .ok (.rraIzx 0x12, []) ∧
    decode [0x64, 0x12] = .ok (.nopZp64 0x12, []) ∧
    decode [0x65, 0x12] = .ok (.adcZp 0x12, []) ∧
    decode [0x66, 0x12] = .ok (.rorZp 0x12, []) ∧
    decode [0x67, 0x12] = .ok (.rraZp 0x12, []) ∧
    decode [0x68] = .ok (.pla, []) ∧
    decode [0x69, 0x12] = .ok (.adcImm 0x12, []) ∧
    decode [0x6A] = .ok (.rorAcc, []) ∧
    decode [0x6B, 0x12] = .ok (.arrImm 0x12, []) ∧
    decode [0x6C, 0x34, 0x12] = .ok (.jmpInd 0x34 0x12, []) ∧
    decode [0x6D, 0x34, 0x12] = .ok (.adcAbs 0x34 0x12, []) ∧
    decode [0x6E, 0x34, 0x12] = .ok (.rorAbs 0x34 0x12, []) ∧
    decode [0x6F, 0x34, 0x12] = .ok (.rraAbs 0x34 0x12, []) :=
  ⟨rfl, rfl, rfl, rfl, rfl, rfl, rfl, rfl, rfl, rfl, rfl, rfl, rfl, rfl, rfl, rfl⟩

/-- Row $7x of the opcode map (30_encoding R84). -/
theorem test_decode_row7 :
    decode [0x70, 0x12] = .ok (.bvs 0x12, []) ∧
    decode [0x71, 0x12] = .ok (.adcIzy 0x12, []) ∧
    decode [0x72] = .ok (.jam72, []) ∧
    decode [0x73, 0x12] = .ok (.rraIzy 0x12, []) ∧
    decode [0x74, 0x12] = .ok (.nopZpx74 0x12, []) ∧
    decode [0x75, 0x12] = .ok (.adcZpx 0x12, []) ∧
    decode [0x76, 0x12] = .ok (.rorZpx 0x12, []) ∧
    decode [0x77, 0x12] = .ok (.rraZpx 0x12, []) ∧
    decode [0x78] = .ok (.sei, []) ∧
    decode [0x79, 0x34, 0x12] = .ok (.adcAby 0x34 0x12, []) ∧
    decode [0x7A] = .ok (.nopImp7A, []) ∧
    decode [0x7B, 0x34, 0x12] = .ok (.rraAby 0x34 0x12, []) ∧
    decode [0x7C, 0x34, 0x12] = .ok (.nopAbx7C 0x34 0x12, []) ∧
    decode [0x7D, 0x34, 0x12] = .ok (.adcAbx 0x34 0x12, []) ∧
    decode [0x7E, 0x34, 0x12] = .ok (.rorAbx 0x34 0x12, []) ∧
    decode [0x7F, 0x34, 0x12] = .ok (.rraAbx 0x34 0x12, []) :=
  ⟨rfl, rfl, rfl, rfl, rfl, rfl, rfl, rfl, rfl, rfl, rfl, rfl, rfl, rfl, rfl, rfl⟩

/-- Row $8x of the opcode map (30_encoding R84). -/
theorem test_decode_row8 :
    decode [0x80, 0x12] = .ok (.nopImm80 0x12, []) ∧
    decode [0x81, 0x12] = .ok (.staIzx 0x12, []) ∧
    decode [0x82, 0x12] = .ok (.nopImm82 0x12, []) ∧
    decode [0x83, 0x12] = .ok (.saxIzx 0x12, []) ∧
    decode [0x84, 0x12] = .ok (.styZp 0x12, []) ∧
    decode [0x85, 0x12] = .ok (.staZp 0x12, []) ∧
    decode [0x86, 0x12] = .ok (.stxZp 0x12, []) ∧
    decode [0x87, 0x12] = .ok (.saxZp 0x12, []) ∧
    decode [0x88] = .ok (.dey, []) ∧
    decode [0x89, 0x12] = .ok (.nopImm89 0x12, []) ∧
    decode [0x8A] = .ok (.txa, []) ∧
    decode [0x8B, 0x12] = .ok (.aneImm 0x12, []) ∧
    decode [0x8C, 0x34, 0x12] = .ok (.styAbs 0x34 0x12, []) ∧
    decode [0x8D, 0x34, 0x12] = .ok (.staAbs 0x34 0x12, []) ∧
    decode [0x8E, 0x34, 0x12] = .ok (.stxAbs 0x34 0x12, []) ∧
    decode [0x8F, 0x34, 0x12] = .ok (.saxAbs 0x34 0x12, []) :=
  ⟨rfl, rfl, rfl, rfl, rfl, rfl, rfl, rfl, rfl, rfl, rfl, rfl, rfl, rfl, rfl, rfl⟩

/-- Row $9x of the opcode map (30_encoding R84). -/
theorem test_decode_row9 :
    decode [0x90, 0x12] = .ok (.bcc 0x12, []) ∧
    decode [0x91, 0x12] = .ok (.staIzy 0x12, []) ∧
    decode [0x92] = .ok (.jam92, []) ∧
    decode [0x93, 0x12] = .ok (.shaIzy 0x12, []) ∧
    decode [0x94, 0x12] = .ok (.styZpx 0x12, []) ∧
    decode [0x95, 0x12] = .ok (.staZpx 0x12, []) ∧
    decode [0x96, 0x12] = .ok (.stxZpy 0x12, []) ∧
    decode [0x97, 0x12] = .ok (.saxZpy 0x12, []) ∧
    decode [0x98] = .ok (.tya, []) ∧
    decode [0x99, 0x34, 0x12] = .ok (.staAby 0x34 0x12, []) ∧
    decode [0x9A] = .ok (.txs, []) ∧
    decode [0x9B, 0x34, 0x12] = .ok (.tasAby 0x34 0x12, []) ∧
    decode [0x9C, 0x34, 0x12] = .ok (.shyAbx 0x34 0x12, []) ∧
    decode [0x9D, 0x34, 0x12] = .ok (.staAbx 0x34 0x12, []) ∧
    decode [0x9E, 0x34, 0x12] = .ok (.shxAby 0x34 0x12, []) ∧
    decode [0x9F, 0x34, 0x12] = .ok (.shaAby 0x34 0x12, []) :=
  ⟨rfl, rfl, rfl, rfl, rfl, rfl, rfl, rfl, rfl, rfl, rfl, rfl, rfl, rfl, rfl, rfl⟩

/-- Row $Ax of the opcode map (30_encoding R84). -/
theorem test_decode_rowA :
    decode [0xA0, 0x12] = .ok (.ldyImm 0x12, []) ∧
    decode [0xA1, 0x12] = .ok (.ldaIzx 0x12, []) ∧
    decode [0xA2, 0x12] = .ok (.ldxImm 0x12, []) ∧
    decode [0xA3, 0x12] = .ok (.laxIzx 0x12, []) ∧
    decode [0xA4, 0x12] = .ok (.ldyZp 0x12, []) ∧
    decode [0xA5, 0x12] = .ok (.ldaZp 0x12, []) ∧
    decode [0xA6, 0x12] = .ok (.ldxZp 0x12, []) ∧
    decode [0xA7, 0x12] = .ok (.laxZp 0x12, []) ∧
    decode [0xA8] = .ok (.tay, []) ∧
    decode [0xA9, 0x12] = .ok (.ldaImm 0x12, []) ∧
    decode [0xAA] = .ok (.tax, []) ∧
    decode [0xAB, 0x12] = .ok (.lxaImm 0x12, []) ∧
    decode [0xAC, 0x34, 0x12] = .ok (.ldyAbs 0x34 0x12, []) ∧
    decode [0xAD, 0x34, 0x12] = .ok (.ldaAbs 0x34 0x12, []) ∧
    decode [0xAE, 0x34, 0x12] = .ok (.ldxAbs 0x34 0x12, []) ∧
    decode [0xAF, 0x34, 0x12] = .ok (.laxAbs 0x34 0x12, []) :=
  ⟨rfl, rfl, rfl, rfl, rfl, rfl, rfl, rfl, rfl, rfl, rfl, rfl, rfl, rfl, rfl, rfl⟩

/-- Row $Bx of the opcode map (30_encoding R84). -/
theorem test_decode_rowB :
    decode [0xB0, 0x12] = .ok (.bcs 0x12, []) ∧
    decode [0xB1, 0x12] = .ok (.ldaIzy 0x12, []) ∧
    decode [0xB2] = .ok (.jamB2, []) ∧
    decode [0xB3, 0x12] = .ok (.laxIzy 0x12, []) ∧
    decode [0xB4, 0x12] = .ok (.ldyZpx 0x12, []) ∧
    decode [0xB5, 0x12] = .ok (.ldaZpx 0x12, []) ∧
    decode [0xB6, 0x12] = .ok (.ldxZpy 0x12, []) ∧
    decode [0xB7, 0x12] = .ok (.laxZpy 0x12, []) ∧
    decode [0xB8] = .ok (.clv, []) ∧
    decode [0xB9, 0x34, 0x12] = .ok (.ldaAby 0x34 0x12, []) ∧
    decode [0xBA] = .ok (.tsx, []) ∧
    decode [0xBB, 0x34, 0x12] = .ok (.lasAby 0x34 0x12, []) ∧
    decode [0xBC, 0x34, 0x12] = .ok (.ldyAbx 0x34 0x12, []) ∧
    decode [0xBD, 0x34, 0x12] = .ok (.ldaAbx 0x34 0x12, []) ∧
    decode [0xBE, 0x34, 0x12] = .ok (.ldxAby 0x34 0x12, []) ∧
    decode [0xBF, 0x34, 0x12] = .ok (.laxAby 0x34 0x12, []) :=
  ⟨rfl, rfl, rfl, rfl, rfl, rfl, rfl, rfl, rfl, rfl, rfl, rfl, rfl, rfl, rfl, rfl⟩

/-- Row $Cx of the opcode map (30_encoding R84). -/
theorem test_decode_rowC :
    decode [0xC0, 0x12] = .ok (.cpyImm 0x12, []) ∧
    decode [0xC1, 0x12] = .ok (.cmpIzx 0x12, []) ∧
    decode [0xC2, 0x12] = .ok (.nopImmC2 0x12, []) ∧
    decode [0xC3, 0x12] = .ok (.dcpIzx 0x12, []) ∧
    decode [0xC4, 0x12] = .ok (.cpyZp 0x12, []) ∧
    decode [0xC5, 0x12] = .ok (.cmpZp 0x12, []) ∧
    decode [0xC6, 0x12] = .ok (.decZp 0x12, []) ∧
    decode [0xC7, 0x12] = .ok (.dcpZp 0x12, []) ∧
    decode [0xC8] = .ok (.iny, []) ∧
    decode [0xC9, 0x12] = .ok (.cmpImm 0x12, []) ∧
    decode [0xCA] = .ok (.dex, []) ∧
    decode [0xCB, 0x12] = .ok (.sbxImm 0x12, []) ∧
    decode [0xCC, 0x34, 0x12] = .ok (.cpyAbs 0x34 0x12, []) ∧
    decode [0xCD, 0x34, 0x12] = .ok (.cmpAbs 0x34 0x12, []) ∧
    decode [0xCE, 0x34, 0x12] = .ok (.decAbs 0x34 0x12, []) ∧
    decode [0xCF, 0x34, 0x12] = .ok (.dcpAbs 0x34 0x12, []) :=
  ⟨rfl, rfl, rfl, rfl, rfl, rfl, rfl, rfl, rfl, rfl, rfl, rfl, rfl, rfl, rfl, rfl⟩

/-- Row $Dx of the opcode map (30_encoding R84). -/
theorem test_decode_rowD :
    decode [0xD0, 0x12] = .ok (.bne 0x12, []) ∧
    decode [0xD1, 0x12] = .ok (.cmpIzy 0x12, []) ∧
    decode [0xD2] = .ok (.jamD2, []) ∧
    decode [0xD3, 0x12] = .ok (.dcpIzy 0x12, []) ∧
    decode [0xD4, 0x12] = .ok (.nopZpxD4 0x12, []) ∧
    decode [0xD5, 0x12] = .ok (.cmpZpx 0x12, []) ∧
    decode [0xD6, 0x12] = .ok (.decZpx 0x12, []) ∧
    decode [0xD7, 0x12] = .ok (.dcpZpx 0x12, []) ∧
    decode [0xD8] = .ok (.cld, []) ∧
    decode [0xD9, 0x34, 0x12] = .ok (.cmpAby 0x34 0x12, []) ∧
    decode [0xDA] = .ok (.nopImpDA, []) ∧
    decode [0xDB, 0x34, 0x12] = .ok (.dcpAby 0x34 0x12, []) ∧
    decode [0xDC, 0x34, 0x12] = .ok (.nopAbxDC 0x34 0x12, []) ∧
    decode [0xDD, 0x34, 0x12] = .ok (.cmpAbx 0x34 0x12, []) ∧
    decode [0xDE, 0x34, 0x12] = .ok (.decAbx 0x34 0x12, []) ∧
    decode [0xDF, 0x34, 0x12] = .ok (.dcpAbx 0x34 0x12, []) :=
  ⟨rfl, rfl, rfl, rfl, rfl, rfl, rfl, rfl, rfl, rfl, rfl, rfl, rfl, rfl, rfl, rfl⟩

/-- Row $Ex of the opcode map (30_encoding R84). -/
theorem test_decode_rowE :
    decode [0xE0, 0x12] = .ok (.cpxImm 0x12, []) ∧
    decode [0xE1, 0x12] = .ok (.sbcIzx 0x12, []) ∧
    decode [0xE2, 0x12] = .ok (.nopImmE2 0x12, []) ∧
    decode [0xE3, 0x12] = .ok (.iscIzx 0x12, []) ∧
    decode [0xE4, 0x12] = .ok (.cpxZp 0x12, []) ∧
    decode [0xE5, 0x12] = .ok (.sbcZp 0x12, []) ∧
    decode [0xE6, 0x12] = .ok (.incZp 0x12, []) ∧
    decode [0xE7, 0x12] = .ok (.iscZp 0x12, []) ∧
    decode [0xE8] = .ok (.inx, []) ∧
    decode [0xE9, 0x12] = .ok (.sbcImm 0x12, []) ∧
    decode [0xEA] = .ok (.nop, []) ∧
    decode [0xEB, 0x12] = .ok (.usbcImm 0x12, []) ∧
    decode [0xEC, 0x34, 0x12] = .ok (.cpxAbs 0x34 0x12, []) ∧
    decode [0xED, 0x34, 0x12] = .ok (.sbcAbs 0x34 0x12, []) ∧
    decode [0xEE, 0x34, 0x12] = .ok (.incAbs 0x34 0x12, []) ∧
    decode [0xEF, 0x34, 0x12] = .ok (.iscAbs 0x34 0x12, []) :=
  ⟨rfl, rfl, rfl, rfl, rfl, rfl, rfl, rfl, rfl, rfl, rfl, rfl, rfl, rfl, rfl, rfl⟩

/-- Row $Fx of the opcode map (30_encoding R84). -/
theorem test_decode_rowF :
    decode [0xF0, 0x12] = .ok (.beq 0x12, []) ∧
    decode [0xF1, 0x12] = .ok (.sbcIzy 0x12, []) ∧
    decode [0xF2] = .ok (.jamF2, []) ∧
    decode [0xF3, 0x12] = .ok (.iscIzy 0x12, []) ∧
    decode [0xF4, 0x12] = .ok (.nopZpxF4 0x12, []) ∧
    decode [0xF5, 0x12] = .ok (.sbcZpx 0x12, []) ∧
    decode [0xF6, 0x12] = .ok (.incZpx 0x12, []) ∧
    decode [0xF7, 0x12] = .ok (.iscZpx 0x12, []) ∧
    decode [0xF8] = .ok (.sed, []) ∧
    decode [0xF9, 0x34, 0x12] = .ok (.sbcAby 0x34 0x12, []) ∧
    decode [0xFA] = .ok (.nopImpFA, []) ∧
    decode [0xFB, 0x34, 0x12] = .ok (.iscAby 0x34 0x12, []) ∧
    decode [0xFC, 0x34, 0x12] = .ok (.nopAbxFC 0x34 0x12, []) ∧
    decode [0xFD, 0x34, 0x12] = .ok (.sbcAbx 0x34 0x12, []) ∧
    decode [0xFE, 0x34, 0x12] = .ok (.incAbx 0x34 0x12, []) ∧
    decode [0xFF, 0x34, 0x12] = .ok (.iscAbx 0x34 0x12, []) :=
  ⟨rfl, rfl, rfl, rfl, rfl, rfl, rfl, rfl, rfl, rfl, rfl, rfl, rfl, rfl, rfl, rfl⟩

/-- One word per family, its bits written out from the opcode map. -/
theorem test_decode_bits :
    decode [0b10110001, 0b00000101] = .ok (.ldaIzy 0x05, []) ∧ decode [0b00101000] = .ok (.plp, []) ∧
    decode [0b11101001, 0b11111111] = .ok (.sbcImm 0xFF, []) ∧ decode [0b01111110, 0b00000001, 0b10000000] = .ok (.rorAbx 0x01 0x80, []) ∧
    decode [0b01101100, 0b11111111, 0b00000010] = .ok (.jmpInd 0xFF 0x02, []) ∧ decode [0b10111000] = .ok (.clv, []) ∧
    decode [0b10010011, 0b00010000] = .ok (.shaIzy 0x10, []) :=
  ⟨rfl, rfl, rfl, rfl, rfl, rfl, rfl⟩

/-- Missing bytes are refused by name. -/
theorem test_decode_refuses :
    decode [] = .error .noOpcode ∧ decode [0xA9] = .error (.missingOperand 0xA9) ∧ decode [0x20, 0x00] = .error (.missingOperand 0x20) :=
  ⟨rfl, rfl, rfl⟩

/-- A table word: bit 0 is the least significant bit of the first byte; bits above `nbits` are 0. -/
theorem test_decodeTableWord :
    decodeTableWord 24 0x1234AD = some (.ldaAbs 0x34 0x12) ∧ decodeTableWord 8 0x12A9 = some (.ldaImm 0x00) := by decide

/-! ### One step of each mnemonic -/

/-- The setting of the test vectors: code at an address of the PRG image, the three vectors at $9000, $8000 and $A000, listed RAM bytes, both
magic constants $EE, polls allowed. -/
def setup (at_ : Nat) (code : List Byte) (ram : Memory) (f : CpuState → CpuState) : State :=
  let vectors := Memory.load zeroFill [] 0x3FFA [0x00, 0x90, 0x00, 0x80, 0x00, 0xA0]
  { State.reset with
    cpu := f { CpuState.reset with pc := BitVec.ofNat 16 at_, pollSuppress := false }
    bus := { State.reset.bus with ram := ram, mapper := { prgSize := .k16, prg := Memory.load zeroFill vectors (at_ - 0x8000) code } }
    params := { Params.reset with magicAne := 0xEE, magicLxa := 0xEE } }

/-- The APU frame IRQ asserted. -/
def withFrameIrq (s : State) : State :=
  { s with bus := { s.bus with apu := { s.bus.apu with frameIrq := true } } }

/-- A, X, Y, S, PC, P as PLP's byte, and the cycles of the step. -/
def summary (t : State) : List Nat :=
  [t.cpu.a.toNat, t.cpu.x.toNat, t.cpu.y.toNat, t.cpu.s.toNat, t.cpu.pc.toNat, (t.cpu.p.pbyte false).toNat, t.stepCycles]

/-- What one CPU step leaves in the registers. -/
def registers (s : State) : Option (List Nat) :=
  match cpuStep s with
  | .next t => some (summary t)
  | .fault _ => none
  | .refused _ => none

/-- The registers and the last byte written. -/
def written (s : State) : Option (List Nat × Option (Nat × Nat)) :=
  match cpuStep s with
  | .next t => some (summary t, (t.bus.log.find? (fun x => decide (x.kind = .write))).map fun x => (x.addr.toNat, x.value.toNat))
  | .fault _ => none
  | .refused _ => none

/-- The registers and every bus access, oldest first. -/
def after (s : State) : Option (List Nat × List (AccessKind × Nat × Nat)) :=
  match cpuStep s with
  | .next t => some (summary t, t.bus.log.reverse.map fun x => (x.kind, x.addr.toNat, x.value.toNat))
  | .fault _ => none
  | .refused _ => none

/-- 95_test_vectors V8 (R140 R109). -/
theorem test_lda_V8 : after (setup 0x8000 [0xB1, 0xFF] [(0x000, 0x02), (0x0FF, 0xF0), (0x210, 0x00), (0x310, 0x44)] (fun c => { c with y := 0x20 })) =
    some ([0x44, 0x00, 0x20, 0xFD, 0x8002, 0b00100100, 6],
      [(.read, 0x8000, 0xB1), (.read, 0x8001, 0xFF), (.read, 0x00FF, 0xF0), (.read, 0x0000, 0x02), (.read, 0x0210, 0x00), (.read, 0x0310, 0x44)]) := by decide

/-- 95_test_vectors V9 (R141 R105). -/
theorem test_ldx_V9 : registers (setup 0x8000 [0xB6, 0x80] [(0x010, 0xFE)] (fun c => { c with y := 0x90 })) =
    some [0x00, 0xFE, 0x90, 0xFD, 0x8002, 0b10100100, 4] := by decide

/-- 95_test_vectors V10 (R142 R107). -/
theorem test_ldy_V10 : registers (setup 0x8000 [0xBC, 0x10, 0x02] [(0x300, 0x00)] (fun c => { c with x := 0xF0, p := { c.p with n := true } })) =
    some [0x00, 0xF0, 0x00, 0xFD, 0x8003, 0b00100110, 5] := by decide

/-- 95_test_vectors V12 (R143 R109). -/
theorem test_sta_V12 : after (setup 0x8000 [0x91, 0x40] [(0x040, 0x00), (0x041, 0x04), (0x401, 0x00)] (fun c => { c with a := 0x66, y := 0x01 })) =
    some ([0x66, 0x00, 0x01, 0xFD, 0x8002, 0b00100100, 6],
      [(.read, 0x8000, 0x91), (.read, 0x8001, 0x40), (.read, 0x0040, 0x00), (.read, 0x0041, 0x04), (.read, 0x0401, 0x00), (.write, 0x0401, 0x66)]) := by decide

/-- 95_test_vectors V13 (R144 R105). -/
theorem test_stx_V13 : written (setup 0x8000 [0x96, 0xFF] [] (fun c => { c with x := 0x99, y := 0x02 })) =
    some ([0x00, 0x99, 0x02, 0xFD, 0x8002, 0b00100100, 4], some (0x0001, 0x99)) := by decide

/-- 95_test_vectors V14 (R145). -/
theorem test_sty_V14 : written (setup 0x8000 [0x8C, 0xFF, 0x07] [] (fun c => { c with y := 0xC3 })) =
    some ([0x00, 0x00, 0xC3, 0xFD, 0x8003, 0b00100100, 4], some (0x07FF, 0xC3)) := by decide

/-- 95_test_vectors V15 (R146). -/
theorem test_tax_V15 : registers (setup 0x8000 [0xAA] [] (fun c => { c with a := 0x80, x := 0x00 })) =
    some [0x80, 0x80, 0x00, 0xFD, 0x8001, 0b10100100, 2] := by decide

/-- 95_test_vectors V16 (R150). -/
theorem test_tsx_V16 : registers (setup 0x8000 [0xBA] [] (fun c => { c with s := 0x00 })) =
    some [0x00, 0x00, 0x00, 0x00, 0x8001, 0b00100110, 2] := by decide

/-- 95_test_vectors V17 (R151). -/
theorem test_txs_V17 : registers (setup 0x8000 [0x9A] [] (fun c => { c with x := 0x00, p := { c.p with n := true, z := false } })) =
    some [0x00, 0x00, 0x00, 0x00, 0x8001, 0b10100100, 2] := by decide

/-- 95_test_vectors V20 (R162 R160). -/
theorem test_pha_V20 : after (setup 0x8000 [0x48] [] (fun c => { c with a := 0xA5, s := 0x00 })) =
    some ([0xA5, 0x00, 0x00, 0xFF, 0x8001, 0b00100100, 3],
      [(.read, 0x8000, 0x48), (.read, 0x8001, 0x00), (.write, 0x0100, 0xA5)]) := by decide

/-- 95_test_vectors V22 (R163). -/
theorem test_php_V22 : written (setup 0x8000 [0x08] [] (fun c => { c with s := 0xFD, p := { c.p with n := true, i := false, c := true }, iPoll := false })) =
    some ([0x00, 0x00, 0x00, 0xFC, 0x8001, 0b10100001, 3], some (0x01FD, 0xB1)) := by decide

/-- 95_test_vectors V21 (R164 R161). -/
theorem test_pla_V21 : after (setup 0x8000 [0x68] [(0x100, 0x00), (0x1FF, 0x00)] (fun c => { c with s := 0xFF })) =
    some ([0x00, 0x00, 0x00, 0x00, 0x8001, 0b00100110, 4],
      [(.read, 0x8000, 0x68), (.read, 0x8001, 0x00), (.read, 0x01FF, 0x00), (.read, 0x0100, 0x00)]) := by decide

/-- 95_test_vectors V24 (R165). -/
theorem test_plp_V24 : registers (setup 0x8000 [0x28] [(0x1FD, 0xCF)] (fun c => { c with s := 0xFC })) =
    some [0x00, 0x00, 0x00, 0xFD, 0x8001, 0b11101111, 4] := by decide

/-- 95_test_vectors V33 (R171). -/
theorem test_adc_V33 : registers (setup 0x8000 [0x69, 0x90] [] (fun c => { c with a := 0xD0, p := { c.p with c := false } })) =
    some [0x60, 0x00, 0x00, 0xFD, 0x8002, 0b01100101, 2] := by decide

/-- 95_test_vectors V37 (R171 R34). -/
theorem test_adc_V37 : registers (setup 0x8000 [0x69, 0x01] [] (fun c => { c with a := 0x09, p := { c.p with d := true, c := false } })) =
    some [0x0A, 0x00, 0x00, 0xFD, 0x8002, 0b00101100, 2] := by decide

/-- 95_test_vectors V41 (R172). -/
theorem test_sbc_V41 : registers (setup 0x8000 [0xE9, 0x01] [] (fun c => { c with a := 0x80, p := { c.p with c := true } })) =
    some [0x7F, 0x00, 0x00, 0xFD, 0x8002, 0b01100101, 2] := by decide

/-- 95_test_vectors V44 (R173). -/
theorem test_and_V44 : registers (setup 0x8000 [0x29, 0x0F] [] (fun c => { c with a := 0xF0 })) =
    some [0x00, 0x00, 0x00, 0xFD, 0x8002, 0b00100110, 2] := by decide

/-- 95_test_vectors V45 (R174). -/
theorem test_ora_V45 : registers (setup 0x8000 [0x05, 0x10] [(0x010, 0x00)] (fun c => { c with a := 0x00 })) =
    some [0x00, 0x00, 0x00, 0xFD, 0x8002, 0b00100110, 3] := by decide

/-- 95_test_vectors V46 (R175). -/
theorem test_eor_V46 : registers (setup 0x8000 [0x49, 0x7F] [] (fun c => { c with a := 0xFF })) =
    some [0x80, 0x00, 0x00, 0xFD, 0x8002, 0b10100100, 2] := by decide

/-- 95_test_vectors V47 (R176). -/
theorem test_bit_V47 : registers (setup 0x8000 [0x2C, 0x00, 0x02] [(0x200, 0x40)] (fun c => { c with a := 0x0F })) =
    some [0x0F, 0x00, 0x00, 0xFD, 0x8003, 0b01100110, 4] := by decide

/-- 95_test_vectors V50 (R178 R177). -/
theorem test_cmp_V50 : registers (setup 0x8000 [0xC9, 0x41] [] (fun c => { c with a := 0x40 })) =
    some [0x40, 0x00, 0x00, 0xFD, 0x8002, 0b10100100, 2] := by decide

/-- 95_test_vectors V52 (R179). -/
theorem test_cpx_V52 : registers (setup 0x8000 [0xE0, 0xFF] [] (fun c => { c with x := 0x00 })) =
    some [0x00, 0x00, 0x00, 0xFD, 0x8002, 0b00100100, 2] := by decide

/-- 95_test_vectors V53 (R180). -/
theorem test_cpy_V53 : registers (setup 0x8000 [0xC0, 0x80] [] (fun c => { c with y := 0x7F })) =
    some [0x00, 0x00, 0x7F, 0xFD, 0x8002, 0b10100100, 2] := by decide

/-- 95_test_vectors V54 (R181 R107). -/
theorem test_inc_V54 : after (setup 0x8000 [0xFE, 0xFF, 0x01] [(0x100, 0x00), (0x200, 0xFF)] (fun c => { c with x := 0x01 })) =
    some ([0x00, 0x01, 0x00, 0xFD, 0x8003, 0b00100110, 7],
      [(.read, 0x8000, 0xFE), (.read, 0x8001, 0xFF), (.read, 0x8002, 0x01), (.read, 0x0100, 0x00), (.read, 0x0200, 0xFF), (.write, 0x0200, 0xFF), (.write, 0x0200, 0x00)]) := by decide

/-- 95_test_vectors V55 (R182). -/
theorem test_dec_V55 : written (setup 0x8000 [0xC6, 0x10] [(0x010, 0x00)] id) =
    some ([0x00, 0x00, 0x00, 0xFD, 0x8002, 0b10100100, 5], some (0x0010, 0xFF)) := by decide

/-- 95_test_vectors V56 (R183). -/
theorem test_inx_V56 : registers (setup 0x8000 [0xE8] [] (fun c => { c with x := 0xFF })) =
    some [0x00, 0x00, 0x00, 0xFD, 0x8001, 0b00100110, 2] := by decide

/-- 95_test_vectors V57 (R185). -/
theorem test_dex_V57 : registers (setup 0x8000 [0xCA] [] (fun c => { c with x := 0x00 })) =
    some [0x00, 0xFF, 0x00, 0xFD, 0x8001, 0b10100100, 2] := by decide

/-- 95_test_vectors V58 (R184). -/
theorem test_iny_V58 : registers (setup 0x8000 [0xC8] [] (fun c => { c with y := 0x7F })) =
    some [0x00, 0x00, 0x80, 0xFD, 0x8001, 0b10100100, 2] := by decide

/-- 95_test_vectors V59 (R186). -/
theorem test_dey_V59 : registers (setup 0x8000 [0x88] [] (fun c => { c with y := 0x01 })) =
    some [0x00, 0x00, 0x00, 0xFD, 0x8001, 0b00100110, 2] := by decide

/-- 95_test_vectors V65 (R200 R107). -/
theorem test_asl_V65 : after (setup 0x8000 [0x1E, 0x00, 0x02] [(0x205, 0x41)] (fun c => { c with x := 0x05 })) =
    some ([0x00, 0x05, 0x00, 0xFD, 0x8003, 0b10100100, 7],
      [(.read, 0x8000, 0x1E), (.read, 0x8001, 0x00), (.read, 0x8002, 0x02), (.read, 0x0205, 0x41), (.read, 0x0205, 0x41), (.write, 0x0205, 0x41), (.write, 0x0205, 0x82)]) := by decide

/-- 95_test_vectors V61 (R201). -/
theorem test_lsr_V61 : registers (setup 0x8000 [0x4A] [] (fun c => { c with a := 0x01, p := { c.p with n := true } })) =
    some [0x00, 0x00, 0x00, 0xFD, 0x8001, 0b00100111, 2] := by decide

/-- 95_test_vectors V62 (R202). -/
theorem test_rol_V62 : registers (setup 0x8000 [0x2A] [] (fun c => { c with a := 0x80, p := { c.p with c := true } })) =
    some [0x01, 0x00, 0x00, 0xFD, 0x8001, 0b00100101, 2] := by decide

/-- 95_test_vectors V64 (R203). -/
theorem test_ror_V64 : after (setup 0x8000 [0x66, 0x10] [(0x010, 0x00)] (fun c => { c with p := { c.p with c := true } })) =
    some ([0x00, 0x00, 0x00, 0xFD, 0x8002, 0b10100100, 5],
      [(.read, 0x8000, 0x66), (.read, 0x8001, 0x10), (.read, 0x0010, 0x00), (.write, 0x0010, 0x00), (.write, 0x0010, 0x80)]) := by decide

/-- 95_test_vectors V72 (R211). -/
theorem test_jmp_V72 : after (setup 0x8000 [0x6C, 0xFF, 0x02] [(0x200, 0x90), (0x2FF, 0x00), (0x300, 0xC0)] id) =
    some ([0x00, 0x00, 0x00, 0xFD, 0x9000, 0b00100100, 5],
      [(.read, 0x8000, 0x6C), (.read, 0x8001, 0xFF), (.read, 0x8002, 0x02), (.read, 0x02FF, 0x00), (.read, 0x0200, 0x90)]) := by decide

/-- 95_test_vectors V73 (R212). -/
theorem test_jsr_V73 : after (setup 0x8000 [0x20, 0x00, 0x90] [(0x1FD, 0x00)] (fun c => { c with s := 0xFD })) =
    some ([0x00, 0x00, 0x00, 0xFB, 0x9000, 0b00100100, 6],
      [(.read, 0x8000, 0x20), (.read, 0x8001, 0x00), (.read, 0x01FD, 0x00), (.write, 0x01FD, 0x80), (.write, 0x01FC, 0x02), (.read, 0x8002, 0x90)]) := by decide

/-- 95_test_vectors V74 (R213). -/
theorem test_rts_V74 : after (setup 0x8000 [0x60] [(0x1FB, 0x00), (0x1FC, 0x02), (0x1FD, 0x80)] (fun c => { c with s := 0xFB })) =
    some ([0x00, 0x00, 0x00, 0xFD, 0x8003, 0b00100100, 6],
      [(.read, 0x8000, 0x60), (.read, 0x8001, 0x00), (.read, 0x01FB, 0x00), (.read, 0x01FC, 0x02), (.read, 0x01FD, 0x80), (.read, 0x8002, 0x00)]) := by decide

/-- 95_test_vectors V77 (R221 R214). -/
theorem test_bne_V77 : after (setup 0x8000 [0xD0, 0x80] [] (fun c => { c with p := { c.p with z := false } })) =
    some ([0x00, 0x00, 0x00, 0xFD, 0x7F82, 0b00100100, 4],
      [(.read, 0x8000, 0xD0), (.read, 0x8001, 0x80), (.read, 0x8002, 0x00), (.read, 0x8082, 0x00)]) := by decide

/-- 95_test_vectors V78 (R222 R214). -/
theorem test_beq_V78 : registers (setup 0x8000 [0xF0, 0xFE] [] (fun c => { c with p := { c.p with z := true } })) =
    some [0x00, 0x00, 0x00, 0xFD, 0x8000, 0b00100110, 3] := by decide

/-- 95_test_vectors V79 (R214). -/
theorem test_bpl_V79 : after (setup 0x80F0 [0x10, 0x10] [] (fun c => { c with p := { c.p with n := false } })) =
    some ([0x00, 0x00, 0x00, 0xFD, 0x8102, 0b00100100, 4],
      [(.read, 0x80F0, 0x10), (.read, 0x80F1, 0x10), (.read, 0x80F2, 0x00), (.read, 0x8002, 0x00)]) := by decide

/-- 95_test_vectors V81 (R216). -/
theorem test_bmi_V81 : registers (setup 0x8000 [0x30, 0x02] [] (fun c => { c with p := { c.p with n := true } })) =
    some [0x00, 0x00, 0x00, 0xFD, 0x8004, 0b10100100, 3] := by decide

/-- 95_test_vectors V82 (R217). -/
theorem test_bvc_V82 : registers (setup 0x8000 [0x50, 0x02] [] (fun c => { c with p := { c.p with v := false } })) =
    some [0x00, 0x00, 0x00, 0xFD, 0x8004, 0b00100100, 3] := by decide

/-- 95_test_vectors V83 (R218). -/
theorem test_bvs_V83 : registers (setup 0x8000 [0x70, 0x02] [] (fun c => { c with p := { c.p with v := false } })) =
    some [0x00, 0x00, 0x00, 0xFD, 0x8002, 0b00100100, 2] := by decide

/-- 95_test_vectors V84 (R219). -/
theorem test_bcc_V84 : registers (setup 0x8000 [0x90, 0x02] [] (fun c => { c with p := { c.p with c := false } })) =
    some [0x00, 0x00, 0x00, 0xFD, 0x8004, 0b00100100, 3] := by decide

/-- 95_test_vectors V85 (R220). -/
theorem test_bcs_V85 : registers (setup 0x8000 [0xB0, 0x02] [] (fun c => { c with p := { c.p with c := false } })) =
    some [0x00, 0x00, 0x00, 0xFD, 0x8002, 0b00100100, 2] := by decide

/-- 95_test_vectors V86 (R223). -/
theorem test_brk_V86 : after (setup 0x8000 [0x00, 0xEA] [] (fun c => { c with s := 0xFD, p := { c.p with i := false, c := true }, iPoll := false })) =
    some ([0x00, 0x00, 0x00, 0xFA, 0xA000, 0b00100101, 7],
      [(.read, 0x8000, 0x00), (.read, 0x8001, 0xEA), (.write, 0x01FD, 0x80), (.write, 0x01FC, 0x02), (.write, 0x01FB, 0x31), (.read, 0xFFFE, 0x00), (.read, 0xFFFF, 0xA0)]) := by decide

/-- 95_test_vectors V87 (R224). -/
theorem test_rti_V87 : after (setup 0x8000 [0x40] [(0x1FA, 0x00), (0x1FB, 0xC3), (0x1FC, 0x34), (0x1FD, 0x12)] (fun c => { c with s := 0xFA })) =
    some ([0x00, 0x00, 0x00, 0xFD, 0x1234, 0b11100011, 6],
      [(.read, 0x8000, 0x40), (.read, 0x8001, 0x00), (.read, 0x01FA, 0x00), (.read, 0x01FB, 0xC3), (.read, 0x01FC, 0x34), (.read, 0x01FD, 0x12)]) := by decide

/-- 95_test_vectors V90 (R240). -/
theorem test_clc_V90 : registers (setup 0x8000 [0x18] [] (fun c => { c with p := { c.p with c := true } })) =
    some [0x00, 0x00, 0x00, 0xFD, 0x8001, 0b00100100, 2] := by decide

/-- 95_test_vectors V91 (R241). -/
theorem test_sec_V91 : registers (setup 0x8000 [0x38] [] (fun c => { c with p := { c.p with c := false } })) =
    some [0x00, 0x00, 0x00, 0xFD, 0x8001, 0b00100101, 2] := by decide

/-- 95_test_vectors V92 (R242). -/
theorem test_cli_V92 : registers (setup 0x8000 [0x58] [] (fun c => { c with p := { c.p with i := true }, iPoll := true })) =
    some [0x00, 0x00, 0x00, 0xFD, 0x8001, 0b00100000, 2] := by decide

/-- 95_test_vectors V93 (R243). -/
theorem test_sei_V93 : registers (setup 0x8000 [0x78] [] (fun c => { c with p := { c.p with i := false }, iPoll := false })) =
    some [0x00, 0x00, 0x00, 0xFD, 0x8001, 0b00100100, 2] := by decide

/-- 95_test_vectors V94 (R244). -/
theorem test_cld_V94 : registers (setup 0x8000 [0xD8] [] (fun c => { c with p := { c.p with d := true } })) =
    some [0x00, 0x00, 0x00, 0xFD, 0x8001, 0b00100100, 2] := by decide

/-- 95_test_vectors V95 (R245). -/
theorem test_sed_V95 : registers (setup 0x8000 [0xF8] [] (fun c => { c with p := { c.p with d := false } })) =
    some [0x00, 0x00, 0x00, 0xFD, 0x8001, 0b00101100, 2] := by decide

/-- 95_test_vectors V96 (R246). -/
theorem test_clv_V96 : registers (setup 0x8000 [0xB8] [] (fun c => { c with p := { c.p with v := true } })) =
    some [0x00, 0x00, 0x00, 0xFD, 0x8001, 0b00100100, 2] := by decide

/-- 95_test_vectors V97 (R247). -/
theorem test_nop_V97 : after (setup 0x8000 [0xEA] [] id) =
    some ([0x00, 0x00, 0x00, 0xFD, 0x8001, 0b00100100, 2],
      [(.read, 0x8000, 0xEA), (.read, 0x8001, 0x00)]) := by decide

/-- 95_test_vectors V100 (R251). -/
theorem test_slo_V100 : written (setup 0x8000 [0x07, 0x10] [(0x010, 0x81)] (fun c => { c with a := 0x01 })) =
    some ([0x03, 0x00, 0x00, 0xFD, 0x8002, 0b00100101, 5], some (0x0010, 0x02)) := by decide

/-- 95_test_vectors V101 (R252). -/
theorem test_rla_V101 : written (setup 0x8000 [0x27, 0x10] [(0x010, 0x80)] (fun c => { c with a := 0xFF, p := { c.p with c := true } })) =
    some ([0x01, 0x00, 0x00, 0xFD, 0x8002, 0b00100101, 5], some (0x0010, 0x01)) := by decide

/-- 95_test_vectors V102 (R253). -/
theorem test_sre_V102 : written (setup 0x8000 [0x47, 0x10] [(0x010, 0x03)] (fun c => { c with a := 0xFF })) =
    some ([0xFE, 0x00, 0x00, 0xFD, 0x8002, 0b10100101, 5], some (0x0010, 0x01)) := by decide

/-- 95_test_vectors V103 (R254). -/
theorem test_rra_V103 : written (setup 0x8000 [0x67, 0x10] [(0x010, 0x02)] (fun c => { c with a := 0x10, p := { c.p with c := true } })) =
    some ([0x91, 0x00, 0x00, 0xFD, 0x8002, 0b10100100, 5], some (0x0010, 0x81)) := by decide

/-- 95_test_vectors V104 (R257). -/
theorem test_dcp_V104 : written (setup 0x8000 [0xC7, 0x10] [(0x010, 0x41)] (fun c => { c with a := 0x40 })) =
    some ([0x40, 0x00, 0x00, 0xFD, 0x8002, 0b00100111, 5], some (0x0010, 0x40)) := by decide

/-- 95_test_vectors V106 (R258). -/
theorem test_isc_V106 : after (setup 0x8000 [0xFF, 0xFF, 0x01] [(0x100, 0x00), (0x200, 0xFF)] (fun c => { c with a := 0x00, x := 0x01, p := { c.p with c := true } })) =
    some ([0x00, 0x01, 0x00, 0xFD, 0x8003, 0b00100111, 7],
      [(.read, 0x8000, 0xFF), (.read, 0x8001, 0xFF), (.read, 0x8002, 0x01), (.read, 0x0100, 0x00), (.read, 0x0200, 0xFF), (.write, 0x0200, 0xFF), (.write, 0x0200, 0x00)]) := by decide

/-- 95_test_vectors V107 (R255). -/
theorem test_sax_V107 : written (setup 0x8000 [0x87, 0x10] [] (fun c => { c with a := 0xF0, x := 0x3C })) =
    some ([0xF0, 0x3C, 0x00, 0xFD, 0x8002, 0b00100100, 3], some (0x0010, 0x30)) := by decide

/-- 95_test_vectors V109 (R256). -/
theorem test_lax_V109 : registers (setup 0x8000 [0xBF, 0xFF, 0x01] [(0x200, 0x00)] (fun c => { c with y := 0x01 })) =
    some [0x00, 0x00, 0x01, 0xFD, 0x8003, 0b00100110, 5] := by decide

/-- 95_test_vectors V110 (R259). -/
theorem test_anc_V110 : registers (setup 0x8000 [0x0B, 0x80] [] (fun c => { c with a := 0xFF })) =
    some [0x80, 0x00, 0x00, 0xFD, 0x8002, 0b10100101, 2] := by decide

/-- 95_test_vectors V111 (R260). -/
theorem test_alr_V111 : registers (setup 0x8000 [0x4B, 0x03] [] (fun c => { c with a := 0xFF })) =
    some [0x01, 0x00, 0x00, 0xFD, 0x8002, 0b00100101, 2] := by decide

/-- 95_test_vectors V114 (R261). -/
theorem test_arr_V114 : registers (setup 0x8000 [0x6B, 0xFF] [] (fun c => { c with a := 0x40, p := { c.p with c := false } })) =
    some [0x20, 0x00, 0x00, 0xFD, 0x8002, 0b01100100, 2] := by decide

/-- 95_test_vectors V115 (R262). -/
theorem test_sbx_V115 : registers (setup 0x8000 [0xCB, 0x02] [] (fun c => { c with a := 0x0F, x := 0xF3 })) =
    some [0x0F, 0x01, 0x00, 0xFD, 0x8002, 0b00100101, 2] := by decide

/-- 95_test_vectors V117 (R263). -/
theorem test_usbc_V117 : registers (setup 0x8000 [0xEB, 0x01] [] (fun c => { c with a := 0x00, p := { c.p with c := true } })) =
    some [0xFF, 0x00, 0x00, 0xFD, 0x8002, 0b10100100, 2] := by decide

/-- 95_test_vectors V118 (R264). -/
theorem test_ane_V118 : registers (setup 0x8000 [0x8B, 0xFF] [] (fun c => { c with a := 0x00, x := 0x0F })) =
    some [0x0E, 0x0F, 0x00, 0xFD, 0x8002, 0b00100100, 2] := by decide

/-- 95_test_vectors V119 (R265). -/
theorem test_lxa_V119 : registers (setup 0x8000 [0xAB, 0x0F] [] (fun c => { c with a := 0x00 })) =
    some [0x0E, 0x0E, 0x00, 0xFD, 0x8002, 0b00100100, 2] := by decide

/-- 95_test_vectors V120 (R266). -/
theorem test_las_V120 : registers (setup 0x8000 [0xBB, 0x00, 0x02] [(0x200, 0x3F)] (fun c => { c with s := 0xF0 })) =
    some [0x30, 0x30, 0x00, 0x30, 0x8003, 0b00100100, 4] := by decide

/-- 95_test_vectors V125 (R268 R267). -/
theorem test_sha_V125 : after (setup 0x8000 [0x93, 0x10] [(0x008, 0x00), (0x010, 0xF8), (0x011, 0x00)] (fun c => { c with a := 0xFF, x := 0xFF, y := 0x10 })) =
    some ([0xFF, 0xFF, 0x10, 0xFD, 0x8002, 0b00100100, 6],
      [(.read, 0x8000, 0x93), (.read, 0x8001, 0x10), (.read, 0x0010, 0xF8), (.read, 0x0011, 0x00), (.read, 0x0008, 0x00), (.write, 0x0108, 0x01)]) := by decide

/-- 95_test_vectors V122 (R269 R267). -/
theorem test_shx_V122 : after (setup 0x8000 [0x9E, 0xFF, 0x01] [(0x100, 0x00)] (fun c => { c with x := 0xFF, y := 0x01 })) =
    some ([0x00, 0xFF, 0x01, 0xFD, 0x8003, 0b00100100, 5],
      [(.read, 0x8000, 0x9E), (.read, 0x8001, 0xFF), (.read, 0x8002, 0x01), (.read, 0x0100, 0x00), (.write, 0x0200, 0x02)]) := by decide

/-- 95_test_vectors V123 (R270 R267). -/
theorem test_shy_V123 : after (setup 0x8000 [0x9C, 0xF0, 0x02] [(0x210, 0x00)] (fun c => { c with x := 0x20, y := 0x01 })) =
    some ([0x00, 0x20, 0x01, 0xFD, 0x8003, 0b00100100, 5],
      [(.read, 0x8000, 0x9C), (.read, 0x8001, 0xF0), (.read, 0x8002, 0x02), (.read, 0x0210, 0x00), (.write, 0x0110, 0x01)]) := by decide

/-- 95_test_vectors V124 (R271 R267). -/
theorem test_tas_V124 : registers (setup 0x8000 [0x9B, 0x00, 0x03] [] (fun c => { c with a := 0xF3, x := 0x3F, y := 0x00 })) =
    some [0xF3, 0x3F, 0x00, 0x33, 0x8003, 0b00100100, 5] := by decide

/-- 95_test_vectors V126 (R272). -/
theorem test_nop_V126 : after (setup 0x8000 [0x1C, 0xFF, 0x02] [(0x200, 0x00), (0x300, 0x00)] (fun c => { c with x := 0x01 })) =
    some ([0x00, 0x01, 0x00, 0xFD, 0x8003, 0b00100100, 5],
      [(.read, 0x8000, 0x1C), (.read, 0x8001, 0xFF), (.read, 0x8002, 0x02), (.read, 0x0200, 0x00), (.read, 0x0300, 0x00)]) := by decide

/-- 95_test_vectors V140 (R307 R309). -/
theorem test_irq_V140 : after (withFrameIrq (setup 0x8000 [0xEA] [] (fun c => { c with s := 0xFD, p := { c.p with i := false }, iPoll := false }))) =
    some ([0x00, 0x00, 0x00, 0xFA, 0xA000, 0b00100100, 7],
      [(.read, 0x8000, 0xEA), (.read, 0x8000, 0xEA), (.write, 0x01FD, 0x80), (.write, 0x01FC, 0x00), (.write, 0x01FB, 0x20), (.read, 0xFFFE, 0x00), (.read, 0xFFFF, 0xA0)]) := by decide

/-- 95_test_vectors V142 (R307 R309). -/
theorem test_nmi_V142 : after (setup 0x8000 [0xEA] [] (fun c => { c with nmiPending := true, p := { c.p with i := true }, iPoll := true })) =
    some ([0x00, 0x00, 0x00, 0xFA, 0x9000, 0b00100100, 7],
      [(.read, 0x8000, 0xEA), (.read, 0x8000, 0xEA), (.write, 0x01FD, 0x80), (.write, 0x01FC, 0x00), (.write, 0x01FB, 0x24), (.read, 0xFFFA, 0x00), (.read, 0xFFFB, 0x90)]) := by decide

/-- 95_test_vectors V129 (R273 R329). -/
theorem test_jam_V129 : registers (setup 0x8000 [0x02] [] id) =
    some [0x00, 0x00, 0x00, 0xFD, 0x8001, 0b00100100, 1] := by decide

/-- Worked by hand from R147. -/
theorem test_tay : registers (setup 0x8000 [0xA8] [] (fun c => { c with a := 0x80, y := 0x01 })) =
    some [0x80, 0x00, 0x80, 0xFD, 0x8001, 0b10100100, 2] := by decide

/-- Worked by hand from R148. -/
theorem test_txa : registers (setup 0x8000 [0x8A] [] (fun c => { c with x := 0x00, a := 0x7F })) =
    some [0x00, 0x00, 0x00, 0xFD, 0x8001, 0b00100110, 2] := by decide

/-- Worked by hand from R149. -/
theorem test_tya : registers (setup 0x8000 [0x98] [] (fun c => { c with y := 0xFE, a := 0x01 })) =
    some [0xFE, 0x00, 0xFE, 0xFD, 0x8001, 0b10100100, 2] := by decide

/-- 95_test_vectors V130 and V131 (R86, R87): refused, with the opcode and its address. -/
theorem test_refused_V130 :
    (match cpuStep { setup 0x8000 [0x8B, 0x00] [] id with params := { Params.reset with policy := .stable } } with
      | .refused r => some r | .next _ => none | .fault _ => none) = some (.illegalOpcode 0x8B 0x8000) := by decide
theorem test_refused_V131 :
    (match cpuStep { setup 0x8000 [0xA7, 0x10] [] id with params := { Params.reset with policy := .documentedOnly } } with
      | .refused r => some r | .next _ => none | .fault _ => none) = some (.illegalOpcode 0xA7 0x8000) := by decide

/-! ### Witnesses: for each obligation with hypotheses, states and operands that meet them -/

/-- An instruction placed where `State.reset` fetches next. -/
def placed (w : Nat) : State :=
  State.reset.withFetchWord 24 w

/-- The same, under another policy. -/
def placedUnder (policy : IllegalPolicy) (w : Nat) : State :=
  { placed w with params := { Params.reset with policy := policy } }

/-- The same, with other CPU registers. -/
def placedWith (f : CpuState → CpuState) (w : Nat) : State :=
  { placed w with cpu := f (placed w).cpu }

theorem reset_inv : State.reset.Inv :=
  ⟨⟨Memory.wf_nil _ _, Memory.wf_nil _ _, Memory.wf_nil _ _, Memory.wf_nil _ _⟩, by decide, by decide, rfl⟩

/-- A step that meets the invariant's hypotheses, and its outcome. -/
theorem step_placed_nop : ∃ t, step (placed 0xEA) = .next t := ⟨_, rfl⟩

theorem runs_nop : Runs .nop (placed 0xEA) :=
  ⟨rfl, rfl, rfl, rfl, fun k h => by obtain rfl : k = 0 := Nat.lt_one_iff.1 h; rfl⟩

theorem runs_jsr : Runs (.jsrAbs 0x34 0x12) (placed 0x123420) :=
  ⟨rfl, rfl, rfl, rfl, fun k h => by
    have : k < 3 := h
    interval_cases k <;> rfl⟩

theorem runs_brk : Runs .brk (placed 0x00) :=
  ⟨rfl, rfl, rfl, rfl, fun k h => by obtain rfl : k = 0 := Nat.lt_one_iff.1 h; rfl⟩

theorem runs_cli : Runs .cli (placed 0x58) :=
  ⟨rfl, rfl, rfl, rfl, fun k h => by obtain rfl : k = 0 := Nat.lt_one_iff.1 h; rfl⟩

theorem runs_plp : Runs .plp (placed 0x28) :=
  ⟨rfl, rfl, rfl, rfl, fun k h => by obtain rfl : k = 0 := Nat.lt_one_iff.1 h; rfl⟩

theorem runs_rti : Runs .rti (placed 0x40) :=
  ⟨rfl, rfl, rfl, rfl, fun k h => by obtain rfl : k = 0 := Nat.lt_one_iff.1 h; rfl⟩

/-- I = 0, no poll before this step, and the APU frame IRQ asserted. -/
def unmaskedSei : State :=
  withFrameIrq (placedWith (fun c => { c with p := { c.p with i := false } }) 0x78)

theorem runs_sei : Runs .sei unmaskedSei :=
  ⟨rfl, rfl, rfl, rfl, fun k h => by obtain rfl : k = 0 := Nat.lt_one_iff.1 h; rfl⟩

theorem witness_DecodeInvertsEncode : decode [0x20, 0x34, 0x12, 0xFF] = .ok (.jsrAbs 0x34 0x12, [0xFF]) := rfl

/-- The four corners of the policy table: the first and last undocumented opcode, the first and last unstable one, and opcodes that run. -/
theorem witness_PolicyDecidesWhichOpcodesRun :
    (∀ p w, (placedUnder p w).bus.ppu.inBounds (placedUnder p w).params.region ∧ (placedUnder p w).cpu.resetPending = false ∧
      (placedUnder p w).cpu.jammed = false ∧ (placedUnder p w).poll = none) ∧
    ((placedUnder .documentedOnly 0x02).bus.read 0x8000).1 ∈ undocumentedOpcodes ∧
    ((placedUnder .documentedOnly 0xFF).bus.read 0x8000).1 ∈ undocumentedOpcodes ∧
    ((placedUnder .stable 0x8B).bus.read 0x8000).1 ∈ unstableOpcodes ∧
    ((placedUnder .stable 0xAB).bus.read 0x8000).1 ∈ unstableOpcodes ∧
    ((placedUnder .stable 0x02).bus.read 0x8000).1 ∉ unstableOpcodes ∧
    ((placedUnder .documentedOnly 0xEA).bus.read 0x8000).1 ∉ undocumentedOpcodes ∧ (placed 0xEA).cpu.pc = 0x8000 := by
  refine ⟨fun p w => ⟨?_, rfl, rfl, rfl⟩, ?_⟩
  · exact (by decide : PpuState.inBounds .ntsc { PpuState.powerOn with dot := 21, ticks := 21 })
  · decide

/-- The numbers of forms, as the opcode map has them: no list that a statement ranges over is empty. -/
theorem witness_LoadsSetTheirRegister :
    (ldaForms 0 0 0).length = 8 ∧ (ldxForms 0 0 0).length = 5 ∧ (ldyForms 0 0 0).length = 5 := ⟨rfl, rfl, rfl⟩
theorem witness_StoresWriteTheirRegister :
    (staForms 0 0 0).length = 7 ∧ (stxForms 0 0 0).length = 3 ∧ (styForms 0 0 0).length = 3 := ⟨rfl, rfl, rfl⟩
theorem witness_AdcAddsWithCarry : (adcForms 0 0 0).length = 8 := rfl
theorem witness_SbcSubtractsWithBorrow : (sbcForms 0 0 0).length = 8 ∧ (usbcForms 0).length = 1 := ⟨rfl, rfl⟩
theorem witness_LogicCombinesIntoA :
    (andForms 0 0 0).length = 8 ∧ (oraForms 0 0 0).length = 8 ∧ (eorForms 0 0 0).length = 8 := ⟨rfl, rfl, rfl⟩
theorem witness_TestsSetFlagsOnly :
    (bitForms 0 0 0).length = 2 ∧ (cmpForms 0 0 0).length = 8 ∧ (cpxForms 0 0 0).length = 3 ∧ (cpyForms 0 0 0).length = 3 :=
  ⟨rfl, rfl, rfl, rfl⟩
theorem witness_IncrementsAndDecrementsWrap : (incForms 0 0 0).length = 4 ∧ (decForms 0 0 0).length = 4 := ⟨rfl, rfl⟩
theorem witness_ShiftsMoveOneBit :
    (aslForms 0 0 0).length = 4 ∧ (lsrForms 0 0 0).length = 4 ∧ (rolForms 0 0 0).length = 4 ∧ (rorForms 0 0 0).length = 4 :=
  ⟨rfl, rfl, rfl, rfl⟩
/-- Taken and not taken, inside the page and to another page. -/
theorem witness_BranchesGoWhereTheOffsetSays :
    (.beq 0x02, 0xF0, false) ∈ branchForms 0x02 State.reset.cpu.p ∧ (.bne 0x80, 0xD0, true) ∈ branchForms 0x80 State.reset.cpu.p ∧
    branchCrosses 0x8002 0x80 = true ∧ branchCrosses 0x8002 0x05 = false ∧ branchTarget 0x8002 0x80 = 0x7F82 := by decide
theorem witness_SloRlaSreShiftThenCombine :
    (sloForms 0 0 0).length = 7 ∧ (rlaForms 0 0 0).length = 7 ∧ (sreForms 0 0 0).length = 7 := ⟨rfl, rfl, rfl⟩
theorem witness_RraIscDcpModifyThenCompute :
    (rraForms 0 0 0).length = 7 ∧ (iscForms 0 0 0).length = 7 ∧ (dcpForms 0 0 0).length = 7 := ⟨rfl, rfl, rfl⟩
theorem witness_SaxLaxLasMoveAandX :
    (saxForms 0 0 0).length = 4 ∧ (laxForms 0 0 0).length = 6 ∧ (lasForms 0 0).length = 1 := ⟨rfl, rfl, rfl⟩
theorem witness_AncAlrArrSbxCombineImmediates :
    (ancForms 0).length = 2 ∧ (alrForms 0).length = 1 ∧ (arrForms 0).length = 1 ∧ (sbxForms 0).length = 1 := ⟨rfl, rfl, rfl, rfl⟩
theorem witness_AneLxaUseTheMagicConstants : (aneForms 0 ++ lxaForms 0).length = 2 := rfl
theorem witness_HighByteStoresMaskTheirValue :
    (shaForms 0 0 0).length = 2 ∧ (shxForms 0 0).length = 1 ∧ (shyForms 0 0).length = 1 ∧ (tasForms 0 0).length = 1 ∧
      (highForms 0 0 0).length = 5 := ⟨rfl, rfl, rfl, rfl, rfl⟩
theorem witness_UndocumentedNopsOnlyAccessTheBus : (nopForms 0 0 0).length = 21 ∧ impliedNopForms.length = 6 := ⟨rfl, rfl⟩

/-- A jammed state runs on, and a pending reset is served. -/
theorem witness_JamStopsTheCpuUntilReset :
    jamForms.length = 12 ∧ (placedWith (fun c => { c with jammed := true }) 0x02).cpu.jammed = true ∧
    (placedWith (fun c => { c with jammed := true }) 0x02).cpu.resetPending = false ∧
    (∃ t, runToBreakpoint (fun _ => false) 1 (placedWith (fun c => { c with jammed := true }) 0x02) = .next t) ∧
    (placedWith (fun c => { c with jammed := true }) 0x02).hostReset.cpu.resetPending = true :=
  ⟨rfl, rfl, rfl, ⟨_, rfl⟩, rfl⟩

theorem witness_StepRunsTheDecodedInstruction :
    (placed 0x123420).bus.ppu.inBounds (placed 0x123420).params.region ∧ Runs (.jsrAbs 0x34 0x12) (placed 0x123420) ∧
    ∃ t, exec (.jsrAbs 0x34 0x12) (ready (.jsrAbs 0x34 0x12) (placed 0x123420)) = .next t :=
  ⟨by decide, runs_jsr, _, rfl⟩
theorem witness_InstructionStepCountsItsAccesses :
    Runs .nop (placed 0xEA) ∧ ∃ t, exec .nop (ready .nop (placed 0xEA)) = .next t ∧ t.bus.dmaRequest = none :=
  ⟨runs_nop, _, rfl, rfl⟩
/-- Each clause of the poll. -/
theorem witness_PollTakesNmiBeforeIrq :
    (placed 0xEA).cpu.pollSuppress = true ∧ (placed 0xEA).poll = none ∧
    (setup 0x8000 [0xEA] [] fun c => { c with nmiPending := true }).poll = some .nmi ∧
    (withFrameIrq (setup 0x8000 [0xEA] [] fun c => { c with iPoll := false })).poll = some .irq ∧
    (withFrameIrq (setup 0x8000 [0xEA] [] fun c => { c with iPoll := true })).poll = none ∧
    (setup 0x8000 [0xEA] [] fun c => { c with iPoll := false }).poll = none := by decide
theorem witness_InterruptSequenceSavesAndVectors :
    (setup 0x8000 [0xEA] [] fun c => { c with nmiPending := true }).poll = some .nmi ∧
    (withFrameIrq (setup 0x8000 [0xEA] [] fun c => { c with iPoll := false })).poll = some .irq ∧
    (setup 0x8000 [0xEA] [] fun c => { c with nmiPending := true }).cpu.resetPending = false ∧
    (withFrameIrq (setup 0x8000 [0xEA] [] fun c => { c with iPoll := false })).cpu.jammed = false := by decide
theorem witness_ResetSequenceWritesNothing : State.reset.hostReset.cpu.resetPending = true := rfl
theorem witness_HostResetKeepsTheMachine : State.reset.bus.ppu.inBounds State.reset.params.region := by decide
/-- PLP and RTI pull from the slot above S = $FD; the step with SEI starts at I = 0 with the APU frame IRQ up. -/
theorem witness_MaskChangesReachThePollLate :
    State.reset.bus.ppu.inBounds State.reset.params.region ∧ unmaskedSei.bus.ppu.inBounds unmaskedSei.params.region ∧
    Runs .cli (placed 0x58) ∧ Runs .sei unmaskedSei ∧ Runs .plp (placed 0x28) ∧ Runs .rti (placed 0x40) ∧ Runs .nop (placed 0xEA) ∧
    (placed 0x28).bus.byteAt (stackCell (u8 ((placed 0x28).cpu.s.toNat + 1))) = some (Config.ramInit 0x1FE) ∧
    ∃ t, step (placed 0xEA) = .next t :=
  ⟨by decide, by decide, runs_cli, runs_sei, runs_plp, runs_rti, runs_nop, rfl, step_placed_nop⟩
/-- An opcode that the default policy refuses and its two neighbours, which it runs. -/
theorem witness_DefaultParametersRefuseTheUnstableOpcodes :
    u8 0x8B ∈ unstableOpcodes ∧ u8 0x42AB ∈ unstableOpcodes ∧ u8 0x8A ∉ unstableOpcodes ∧ u8 0x8C ∉ unstableOpcodes := by decide
theorem witness_HandlersFirstInstructionIsNotInterrupted :
    (∃ t, step State.reset.hostReset = .next t) ∧ (∃ t, step (placed 0x00) = .next t) ∧ Runs .brk (placed 0x00) ∧
    ∃ t, step (setup 0x8000 [0xEA] [] fun c => { c with nmiPending := true }) = .next t :=
  ⟨⟨_, rfl⟩, ⟨_, rfl⟩, runs_brk, _, rfl⟩
/-- The PPU in the last dot of a frame, where the position wraps, on both regions. -/
theorem witness_FrameHasItsNumberOfDots :
    PpuState.inBounds .ntsc PpuState.powerOn ∧ PpuState.inBounds .ntsc { PpuState.powerOn with scanline := 260, dot := 340 } ∧
    PpuState.inBounds .pal { PpuState.powerOn with scanline := 310, dot := 340 } ∧
    PpuState.inBounds .pal { PpuState.powerOn with scanline := -1, dot := 0 } ∧
    numBit PpuState.powerOn.mask 3 = false ∧ numBit PpuState.powerOn.mask 4 = false := by decide
theorem witness_StatusReadsClearTheirFlags : ppuIndex 0x2002 2 ∧ ppuIndex 0x3FFA 2 := by
  unfold ppuIndex
  decide
theorem witness_DeviceWritesReachTheirRegisters :
    (ppuIndex 0x2000 0 ∧ ppuIndex 0x3FF8 0 ∧ ppuIndex 0x2001 1 ∧ ppuIndex 0x2003 3 ∧ ppuIndex 0x2004 4 ∧ ppuIndex 0x3FFC 4) ∧
    State.reset.bus.ppu.oam.wf Config.oamInit 256 ∧ State.reset.bus.apu.channels.wf zeroFill 0x4018 :=
  ⟨by unfold ppuIndex; decide, Memory.wf_nil _ _, Memory.wf_nil _ _⟩
/-- Each range of undriven addresses at its ends, and driven addresses next to them. -/
theorem witness_OpenBusIsTheLastDrivenByte :
    (undriven 0x2000 ∧ undriven 0x3FFE ∧ undriven 0x4000 ∧ undriven 0x4014 ∧ undriven 0x4018 ∧ undriven 0x7FFF) ∧
    (¬ undriven 0x1FFF ∧ ¬ undriven 0x4015 ∧ ¬ undriven 0x4017 ∧ ¬ undriven 0x8000 ∧ ¬ undriven 0x2004) ∧
    ¬ ppuIndex 0x4015 2 ∧ ¬ ppuIndex 0x8002 2 := by
  unfold undriven ppuIndex
  repeat' apply And.intro
  all_goals decide
theorem witness_AddressesReachTheirTargets :
    (0x1FFF : Addr).toNat < 0x2000 ∧ 0x2000 ≤ (0x2000 : Addr).toNat ∧ (0x3FFF : Addr).toNat < 0x4000 ∧ 0x8000 ≤ (0x8000 : Addr).toNat ∧
      0x8000 ≤ (0xFFFF : Addr).toNat := by decide
theorem witness_WritesToReadOnlyTargetsAreIgnored :
    0x4018 ≤ (0x4018 : Addr).toNat ∧ 0x4018 ≤ (0xFFFF : Addr).toNat ∧ ppuIndex 0x2002 2 := by
  unfold ppuIndex
  decide
theorem witness_RamReadsBackWhatWasWritten :
    State.reset.bus.ram.wf Config.ramInit 0x800 ∧ sameRamByte 0x0000 0x1800 ∧ sameRamByte 0x07FF 0x1FFF ∧ ¬ sameRamByte 0x0000 0x0001 ∧
      ¬ sameRamByte 0x2000 0x2000 :=
  ⟨Memory.wf_nil _ _, by unfold sameRamByte; decide, by unfold sameRamByte; decide, by unfold sameRamByte; decide,
    by unfold sameRamByte; decide⟩
theorem witness_InstructionsThatStoreNothingKeepMemory :
    Instr.ldaIzy 0x10 ∈ (readForms 0x10 0 0).map (·.instr) ++ registerInstrs 0x10 0 0 ++ [.pla, .plp, .rts, .rti] ∧
    Instr.jamF2 ∈ (readForms 0x10 0 0).map (·.instr) ++ registerInstrs 0x10 0 0 ++ [.pla, .plp, .rts, .rti] ∧
    ∃ t, exec (.ldaIzy 0x10) (placed 0xEA) = .next t :=
  ⟨by decide, by decide, _, rfl⟩
theorem witness_StoresChangeTheAddressedByteOnly :
    (storeForms 0 0 0 ++ modifyForms 0 0 0).length = 83 ∧ (shaForms 0 0 0 ++ tasForms 0 0).length = 3 ∧
    (∃ t, exec (.staZp 0x10) (placed 0xEA) = .next t) ∧ (∃ t, exec (.shxAby 0xFF 0x01) (placed 0xEA) = .next t) ∧
    (∃ t, exec (.shyAbx 0xFF 0x01) (placed 0xEA) = .next t) ∧
    ¬ sameRamByte (cell (formed (.zp 0x10) (placed 0xEA).cpu (placed 0xEA).bus).ea) 0x0011 :=
  ⟨rfl, rfl, ⟨_, rfl⟩, ⟨_, rfl⟩, ⟨_, rfl⟩, by unfold sameRamByte; decide⟩
theorem witness_PushesChangeTheirStackBytesOnly :
    (∃ t, exec .pha (placed 0xEA) = .next t) ∧ (∃ t, exec (.jsrAbs 0 0) (placed 0xEA) = .next t) ∧
    (∃ t, exec .brk (placed 0xEA) = .next t) ∧
    (∃ t, cpuStep (setup 0x8000 [0xEA] [] fun c => { c with nmiPending := true }) = .next t) ∧
    ∀ k ≤ 2, ¬ sameRamByte (stackCell ((placed 0xEA).cpu.s - u8 k)) 0x01FA :=
  ⟨⟨_, rfl⟩, ⟨_, rfl⟩, ⟨_, rfl⟩, ⟨_, rfl⟩, by unfold sameRamByte; decide⟩
theorem witness_OnlyTheListedOpcodesWriteEachRegister :
    (∃ t, exec .nop (placed 0xEA) = .next t) ∧ Instr.nop.opcode ∉ opcodesWritingA ∧ Instr.nop.opcode ∉ opcodesWritingPC ∧
      Instr.nop.opcode ∉ opcodesWritingNZ ∧ Instr.clc.opcode ∉ opcodesWritingNZ ∧ Instr.clc.opcode ∈ opcodesWritingC :=
  ⟨⟨_, rfl⟩, by decide⟩
theorem witness_DecimalFlagChangesNoComputation :
    Instr.adcImm 0x01 ∉ [.php, .brk, .plp, .rti, .cld, .sed] ∧ ∃ t, exec (.adcImm 0x01) (placed 0xEA) = .next t :=
  ⟨by decide, _, rfl⟩
/-- The entries with S = $00, where the pushes wrap. -/
theorem witness_ReturnsUndoTheirEntries :
    (placedWith (fun c => { c with s := 0x00 }) 0xEA).bus.ram.wf Config.ramInit 0x800 ∧
    (∃ t, exec (.jsrAbs 0x00 0x90) (placedWith (fun c => { c with s := 0x00 }) 0xEA) = .next t ∧ sameFrame 2 t t) ∧
    (∃ t, exec .brk (placedWith (fun c => { c with s := 0x00 }) 0xEA) = .next t ∧ sameFrame 3 t t) ∧
    (setup 0x8000 [0xEA] [] fun c => { c with nmiPending := true, s := 0x01 }).poll = some .nmi ∧
    ∃ t, cpuStep (setup 0x8000 [0xEA] [] fun c => { c with nmiPending := true, s := 0x01 }) = .next t ∧ sameFrame 3 t t :=
  ⟨Memory.wf_nil _ _, ⟨_, rfl, rfl, fun _ _ _ => rfl⟩, ⟨_, rfl, rfl, fun _ _ _ => rfl⟩, rfl, _, rfl, rfl, fun _ _ _ => rfl⟩
/-- A request, pages at the ends of both ranges, and both parities of `cycles`. -/
theorem witness_OamDmaCopiesThePage :
    (State.reset.write 0x4014 0x1F).bus.dmaRequest = some 0x1F ∧ State.reset.bus.dmaRequest = none ∧ State.reset.cpu.cycles % 2 = 1 ∧
    (0x1F : Byte).toNat < 0x20 ∧ 0x80 ≤ (0x80 : Byte).toNat ∧ 0x80 ≤ (0xFF : Byte).toNat ∧
    (State.reset.write 0x4014 0x1F).bus.ppu.oam.wf Config.oamInit 256 :=
  ⟨rfl, rfl, rfl, by decide, by decide, by decide, Memory.wf_nil _ _⟩
theorem witness_DevicesTickForEveryCycle : ∃ t, step (placed 0xEA) = .next t := step_placed_nop
theorem witness_CartridgeLoadsOrFailsAtOnce :
    (List.replicate 16384 (0 : Byte)).length = 16384 ∧ (List.replicate 32768 (0 : Byte)).length = 32768 ∧
      ([] : List Byte).length ≠ 16384 ∧ ([] : List Byte).length ≠ 32768 :=
  ⟨List.length_replicate, List.length_replicate, by decide, by decide⟩
theorem witness_DisassemblyShowsTheNextInstruction : Runs (.jsrAbs 0x34 0x12) (placed 0x123420) := runs_jsr
theorem witness_EveryStepKeepsTheInvariant : (placed 0xEA).Inv ∧ ∃ t, step (placed 0xEA) = .next t :=
  ⟨⟨⟨Memory.wf_nil _ _, Memory.wf_nil _ _, Memory.wf_load _ (Memory.wf_nil _ _) (by decide), Memory.wf_nil _ _⟩,
    by decide, by decide, rfl⟩, _, rfl⟩
theorem witness_NoProgramCanStopTheMachine : State.reset.Inv ∧ State.reset.params.policy = .full := ⟨reset_inv, rfl⟩

end Sys2Proof.Tests
end

section
/-! PROOFS. Which opcodes a policy gives a meaning, read off the opcode byte (30_encoding R85, R86), and how a step that no reset, jam or interrupt
comes before ends under the policy (R87). -/

namespace Sys2Proof

/-! ### The policy and the opcode byte -/

/-- The class of an instruction is the class of its opcode (R85). -/
theorem Instr.opcode_mem_unstableOpcodes_iff (i : Instr) :
    i.opcode ∈ Machine.unstableOpcodes ↔ i.stability = .unstable := by
  have h : decide (i.opcode ∈ Machine.unstableOpcodes) = decide (i.stability = .unstable) := by
    cases i <;> rfl
  exact decide_eq_decide.1 h

theorem IllegalPolicy.stable_admits_iff (c : Stability) : IllegalPolicy.stable.admits c = true ↔ c ≠ .unstable := by
  cases c <;> decide

/-- The row `Stable` of R86's table, over the opcode byte. -/
theorem wellFormed_stable_iff (i : Instr) : WellFormed .stable i = true ↔ i.opcode ∉ Machine.unstableOpcodes := by
  rw [WellFormed, IllegalPolicy.stable_admits_iff, i.opcode_mem_unstableOpcodes_iff]

namespace Machine

/-! ### A step that runs the instruction at PC -/

/-- Whatever lies at PC, the instruction fetched has the opcode byte that was read there. -/
theorem State.fetchInstr_opcode (s : State) : s.fetchInstr.1.opcode = (s.bus.read s.cpu.pc).1 := by
  change _ = s.fetchByte.1
  have he := opcodeMap_encodes s.fetchByte.1
  unfold State.fetchInstr
  dsimp only
  -- one argument for the four forms: the form at a byte encodes what it makes with that byte first
  cases hf : opcodeMap s.fetchByte.1 <;> rw [hf, Form.Encodes] at he
  all_goals simp only [Instr.opcode, he, List.headD_cons]

theorem State.runInstruction_of_not_wellFormed {s : State} (h : WellFormed s.params.policy s.fetchInstr.1 = false) :
    s.runInstruction = .refused (.illegalOpcode s.fetchInstr.1.opcode s.cpu.pc) := by
  simp only [State.runInstruction, h, Bool.false_eq_true, if_false]

theorem State.runInstruction_of_wellFormed {s : State} (h : WellFormed s.params.policy s.fetchInstr.1 = true) :
    ∃ t, s.runInstruction = .next t := by
  obtain ⟨u, hu, -⟩ := exec_follows s.fetchInstr.1 s.fetchInstr.2
  refine ⟨u.endInstruction s.fetchInstr.1, ?_⟩
  simp only [State.runInstruction, h, if_true, hu]

/-- No reset, jam or interrupt comes first: the CPU step is the instruction at PC (60_exceptions R329). -/
theorem cpuStep_of_noInterrupt {s : State} (hr : s.cpu.resetPending = false) (hj : s.cpu.jammed = false) (hp : s.poll = none) :
    cpuStep s = (started s).runInstruction := by
  have hb : s.beginStep.poll = none := hp
  unfold cpuStep
  dsimp only
  rw [if_neg (by simp [hr]), if_neg (by simp [hj]), hb]
  rfl

theorem step_next_of_cpuStep {s u : State} (hb : s.bus.ppu.inBounds s.params.region) (h : cpuStep s = .next u) :
    ∃ t, step s = .next t :=
  ⟨_, step_next_iff.2 ⟨hb, u, h, rfl⟩⟩

theorem step_refused_of_cpuStep {s : State} {r : Refusal} (hb : s.bus.ppu.inBounds s.params.region) (h : cpuStep s = .refused r) :
    step s = .refused r := by
  rw [step, if_pos hb, h]

/-- The read of the opcode returns the same byte before and after the step's beginning. -/
theorem started_read (s : State) (a : Addr) : ((started s).bus.read a).1 = (s.bus.read a).1 := by
  unfold Bus.read
  rcases route a with k | r | r | c
  · rfl
  · cases r <;> rfl
  · cases r <;> rfl
  · rfl

/-- The step under the policy Stable, over the byte at PC (R86, R87). -/
theorem step_of_stable {s : State} (hs : s.params.policy = .stable) (hb : s.bus.ppu.inBounds s.params.region)
    (hr : s.cpu.resetPending = false) (hj : s.cpu.jammed = false) (hp : s.poll = none) :
    ((s.bus.read s.cpu.pc).1 ∈ unstableOpcodes → step s = .refused (.illegalOpcode (s.bus.read s.cpu.pc).1 s.cpu.pc)) ∧
      ((s.bus.read s.cpu.pc).1 ∉ unstableOpcodes → ∃ t, step s = .next t) := by
  have hc := cpuStep_of_noInterrupt hr hj hp
  have hop : (started s).fetchInstr.1.opcode = (s.bus.read s.cpu.pc).1 :=
    (State.fetchInstr_opcode _).trans (started_read s s.cpu.pc)
  have hw : WellFormed (started s).params.policy (started s).fetchInstr.1 = true ↔ (s.bus.read s.cpu.pc).1 ∉ unstableOpcodes := by
    rw [← hop, ← wellFormed_stable_iff, ← hs]
    rfl
  constructor
  · intro hu
    have hn := Bool.eq_false_iff.2 fun h => hw.1 h hu
    rw [State.runInstruction_of_not_wellFormed hn, hop] at hc
    exact step_refused_of_cpuStep hb hc
  · intro hu
    obtain ⟨t, ht⟩ := State.runInstruction_of_wellFormed (hw.2 hu)
    exact step_next_of_cpuStep hb (hc.trans ht)

/-! ### The word placed where the next step fetches -/

/-- Loading from an address on leaves the bytes below it alone. -/
theorem Memory.read_load_below (u : Nat → Byte) (bytes : List Byte) (m : Memory) {a c : Nat} (h : c < a) :
    (Memory.load u m a bytes).read u c = m.read u c := by
  induction bytes generalizing m a with
  | nil => rfl
  | cons v rest ih => exact (ih (m.write u a v) (Nat.lt_succ_of_lt h)).trans (Memory.read_write_other u m v h.ne)

/-- The first byte loaded is read back. -/
theorem Memory.read_load_first {u : Nat → Byte} {m : Memory} (a : Nat) (v : Byte) (rest : List Byte) (hm : m.Rising) :
    (Memory.load u m a (v :: rest)).read u a = v :=
  (Memory.read_load_below u rest (m.write u a v) (Nat.lt_succ_self a)).trans (Memory.read_write_same a v hm)

/-- A truncation to `nbits` that keeps a whole byte does not change the first byte of a word. -/
theorem u8_mod_two_pow {nbits : Nat} (h : 8 ≤ nbits) (w : Nat) : u8 (w % 2 ^ nbits) = u8 w := by
  apply BitVec.eq_of_toNat_eq
  simp only [u8, BitVec.toNat_ofNat]
  exact Nat.mod_mod_of_dvd w (Nat.pow_dvd_pow 2 h)

/-- The opcode that the next step fetches is the first byte of the word placed (log 18). -/
theorem State.withFetchWord_read_pc {s : State} (hm : s.bus.mapper.prg.Rising) {nbits : Nat} (h : 8 ≤ nbits) (w : Nat) :
    ((s.withFetchWord nbits w).bus.read (s.withFetchWord nbits w).cpu.pc).1 = u8 w := by
  have hd : (s.withFetchWord nbits w).bus.byteAt 0x8000 = some
      ((Memory.load zeroFill s.bus.mapper.prg 0 (tableWordBytes nbits w)).read zeroFill (0 % s.bus.mapper.prgSize.bytes)) := rfl
  rw [Nat.zero_mod, tableWordBytes, Memory.read_load_first 0 _ _ hm] at hd
  exact (Bus.read_of_byteAt hd).trans (u8_mod_two_pow h w)

/-! ### The default parameters (00_scope R9) -/

/-- Settles O59: the default column is the definitions' own, and the step after reset is the step under the policy Stable, over the first byte of the
word placed. -/
theorem defaultParametersRefuseTheUnstableOpcodes : Obligations.DefaultParametersRefuseTheUnstableOpcodes := by
  unfold Obligations.DefaultParametersRefuseTheUnstableOpcodes
  refine ⟨rfl, rfl, rfl, rfl, rfl, fun w => ?_⟩
  have hstep := step_of_stable (s := State.resetByDefault.withFetchWord 24 w) rfl
    (by decide : PpuState.inBounds .ntsc { PpuState.powerOn with dot := 21, ticks := 21 }) rfl rfl rfl
  rwa [State.withFetchWord_read_pc List.Pairwise.nil (by decide : 8 ≤ 24) w] at hstep

end Machine

end Sys2Proof
end

section
/-! PROOFS. The end of an instruction's step (10_state R41, R44; 60_exceptions R329): its cycle count, and the latency of the interrupt mask at the
poll that follows the device ticks (60_exceptions R307). -/

namespace Sys2Proof.Machine

/-! ### The CPU step -/

theorem Instr.delaysPoll_iff (i : Instr) : Instr.delaysPoll i = true ↔ i = .cli ∨ i = .sei ∨ i = .plp :=
  decide_eq_true_iff

/-- CLI, SEI and PLP set `i_poll` to the I of before them (R41). -/
theorem exec_iPoll_of_delaysPoll {i : Instr} {s t : State} (hi : Instr.delaysPoll i = true) (h : exec i s = .next t) :
    t.cpu.iPoll = s.cpu.p.i := by
  obtain rfl | rfl | rfl := (Instr.delaysPoll_iff i).1 hi <;> cases h <;> rfl

/-- After an instruction that requested no DMA, one cycle is counted for each access of the step. -/
theorem State.endInstruction_of_noDma (i : Instr) {t : State} (h : t.bus.dmaRequest = none) :
    t.endInstruction i =
      { t with
        cpu :=
          { t.cpu with
            iPoll := if Instr.delaysPoll i then t.cpu.iPoll else t.cpu.p.i
            cycles := t.cpu.cycles + t.bus.log.length }
        stepCycles := t.bus.log.length } := by
  unfold State.endInstruction
  dsimp only
  split
  · exact State.runDma_none h
  · exact State.runDma_none h

/-- The meaning of an instruction runs with the registers of before the step, but for PC. -/
theorem ready_frame (i : Instr) (s : State) :
    (ready i s).cpu.p = s.cpu.p ∧ (ready i s).cpu.s = s.cpu.s ∧ (ready i s).cpu.cycles = s.cpu.cycles ∧
      (ready i s).cpu.pollSuppress = false := by
  rw [ready_cpu]
  exact ⟨rfl, rfl, rfl, rfl⟩

theorem ready_byteAt (i : Instr) (s : State) (a : Addr) : (ready i s).bus.byteAt a = s.bus.byteAt a :=
  fetched_byteAt _ _ _

/-- `i_poll` after the step: the I of before it for CLI, SEI and PLP, else the I that the meaning left (R41). -/
theorem iPoll_of_exec_ready {i : Instr} {s t : State} (h : exec i (ready i s) = .next t) :
    (if Instr.delaysPoll i then t.cpu.iPoll else t.cpu.p.i) = if Instr.delaysPoll i then s.cpu.p.i else t.cpu.p.i := by
  split
  · rename_i hi
    rw [exec_iPoll_of_delaysPoll hi h, (ready_frame i s).1]
  · rfl

/-- Settles O30: the meaning keeps `cycles` (`State.Follows`), and the end of the step counts the accesses and sets `i_poll`. -/
theorem instructionStepCountsItsAccesses : Obligations.InstructionStepCountsItsAccesses := by
  unfold Obligations.InstructionStepCountsItsAccesses
  intro i s t hr he hd
  obtain ⟨-, -, hready, -⟩ := ready_frame i s
  have hcycles : t.cpu.cycles = s.cpu.cycles := (follows_of_exec he).cycles.trans hready
  rw [cpuStep_of_runs hr he, State.endInstruction_of_noDma i hd, iPoll_of_exec_ready he, hcycles]
  simp only [Instr.delaysPoll_iff]

/-! ### The whole step and the poll after it -/

theorem State.poll_eq_taken {t : State} (h : t.cpu.pollSuppress = false) : t.poll = taken t.cpu.iPoll t := by
  unfold State.poll taken
  rw [h]
  rfl

/-- The mask that the poll after an instruction uses: the I of before the step, in `s`, for CLI, SEI and PLP, else the I that its meaning left in `u`
(R41). -/
def pollMask (i : Instr) (s u : State) : Bool :=
  if Instr.delaysPoll i then s.cpu.p.i else u.cpu.p.i

theorem pollMask_of_not_delaysPoll {i : Instr} (h : i ∉ [.cli, .sei, .plp]) (s u : State) : pollMask i s u = u.cpu.p.i :=
  if_neg fun hd => h (by simpa using (Instr.delaysPoll_iff i).1 hd)

/-- A step that runs an instruction completes. Its end and the device ticks leave the flags to the meaning and set `i_poll`; and they leave
`poll_suppress` as cleared before the instruction (60_exceptions R329), unless that is BRK. -/
theorem step_of_runs {i : Instr} {s : State} (hb : s.bus.ppu.inBounds s.params.region) (hr : Runs i s) :
    ∃ u t, exec i (ready i s) = .next u ∧ step s = .next t ∧ t.cpu.p = u.cpu.p ∧ t.cpu.iPoll = pollMask i s u ∧
      (i ≠ .brk → t.poll = taken (pollMask i s u) t) := by
  obtain ⟨u, he, -⟩ := exec_follows i (ready i s)
  have hdevices := (u.endInstruction i).runDevices_keeps.cpu
  obtain ⟨n, hend⟩ := u.endInstruction_cpu i
  rw [hend, iPoll_of_exec_ready he] at hdevices
  have hmask : (u.endInstruction i).runDevices.cpu.iPoll = pollMask i s u := congrArg CpuState.iPoll hdevices
  refine ⟨u, _, he, step_next_iff.2 ⟨hb, _, cpuStep_of_runs hr he, rfl⟩, (congrArg CpuState.p hdevices).trans rfl, hmask, fun hi => ?_⟩
  obtain ⟨-, -, -, hready⟩ := ready_frame i s
  have hsuppress : (u.endInstruction i).runDevices.cpu.pollSuppress = u.cpu.pollSuppress :=
    (congrArg CpuState.pollSuppress hdevices).trans rfl
  rw [State.poll_eq_taken (hsuppress.trans ((exec_pollSuppress he hi).trans hready)), hmask]

/-! ### The I that PLP and RTI pull -/

/-- The byte pulled is the one in the slot above S, if that is in storage. -/
theorem pulled_fst {s : State} {v : Byte} (h : s.bus.byteAt (stackCell (u8 (s.cpu.s.toNat + 1))) = some v) : (pulled s).1 = v :=
  Bus.read_of_byteAt h

/-- PLP leaves the flags of the byte in the slot above S (42_stack R165). -/
theorem exec_plp_flags {s t : State} {v : Byte} (h : exec .plp s = .next t)
    (hv : s.bus.byteAt (stackCell (u8 (s.cpu.s.toNat + 1))) = some v) : t.cpu.p = statusLoaded v := by
  cases h
  change Flags.pload (s.idle.dummyRead s.idle.cpu.stackAddr).pull.1 = _
  rw [pload_eq, pull_eq, pulled_fst]
  exact ((Bus.byteAt_read _ _ _).trans (Bus.byteAt_read _ _ _)).trans hv

/-- RTI leaves the flags of the byte in the slot above S (45_control_transfer R224). -/
theorem exec_rti_flags {s t : State} {v : Byte} (h : exec .rti s = .next t)
    (hv : s.bus.byteAt (stackCell (u8 (s.cpu.s.toNat + 1))) = some v) : t.cpu.p = statusLoaded v := by
  cases h
  rw [leaveInterrupt_eq]
  change statusLoaded (pulled _).1 = _
  rw [pulled_fst]
  exact ((Bus.byteAt_read _ _ _).trans (Bus.byteAt_read _ _ _)).trans hv

/-- The slot that a pull will read holds the same byte when the meaning runs. -/
theorem ready_slot {i : Instr} {s : State} {v : Byte} (h : s.bus.byteAt (stackCell (u8 (s.cpu.s.toNat + 1))) = some v) :
    (ready i s).bus.byteAt (stackCell (u8 ((ready i s).cpu.s.toNat + 1))) = some v := by
  obtain ⟨-, hs, -, -⟩ := ready_frame i s
  rw [ready_byteAt, hs, h]

/-- Settles O36: the end of the step gives `i_poll`, the ticks keep it, and the poll after them looks at nothing else of the mask. -/
theorem maskChangesReachThePollLate : Obligations.MaskChangesReachThePollLate := by
  unfold Obligations.MaskChangesReachThePollLate
  intro s hb
  refine ⟨fun hr => ?cli, fun hr => ?sei, fun v hr hv => ?plp, fun v hr hv => ?rti, fun i t hr hi ht => ?other⟩
  case cli =>
    obtain ⟨u, t, he, ht, hp, hmask, hpoll⟩ := step_of_runs hb hr
    cases he
    exact ⟨t, ht, congrArg Flags.i hp, hmask, hpoll (by decide)⟩
  case sei =>
    obtain ⟨u, t, he, ht, hp, hmask, hpoll⟩ := step_of_runs hb hr
    cases he
    exact ⟨t, ht, congrArg Flags.i hp, hmask, hpoll (by decide)⟩
  case plp =>
    obtain ⟨u, t, he, ht, hp, hmask, hpoll⟩ := step_of_runs hb hr
    exact ⟨t, ht, congrArg Flags.i (hp.trans (exec_plp_flags he (ready_slot hv))), hmask, hpoll (by decide)⟩
  case rti =>
    obtain ⟨u, t, he, ht, hp, hmask, hpoll⟩ := step_of_runs hb hr
    have hu : u.cpu.p.i = numBit v 2 := congrArg Flags.i (exec_rti_flags he (ready_slot hv))
    rw [pollMask_of_not_delaysPoll (by decide), hu] at hmask hpoll
    exact ⟨t, ht, (congrArg Flags.i hp).trans hu, hmask, hpoll (by decide)⟩
  case other =>
    obtain ⟨u, t', -, ht', hp, hmask, hpoll⟩ := step_of_runs hb hr
    cases ht'.symm.trans ht
    rw [pollMask_of_not_delaysPoll hi, ← hp] at hmask hpoll
    exact ⟨hmask, hpoll⟩

end Sys2Proof.Machine
end

section
/-! PROOFS. Which registers and flags an instruction writes (10_state R21 to R33, R46), and that no instruction computes with D (R31): both read off the
one state that each meaning leaves, by access class. -/

namespace Sys2Proof.Machine

/-! ### Registers, their writers, and the CPU states that differ in some registers only -/

/-- The registers and flags that 10_state R21 to R33 list writers for; N and Z have one list. -/
inductive Reg where
  | a
  | x
  | y
  | s
  | pc
  | c
  | nz
  | i
  | d
  | v
  deriving DecidableEq

/-- The spec's list of the opcodes that write a register. -/
def Reg.writers : Reg → List Byte
  | .a => opcodesWritingA
  | .x => opcodesWritingX
  | .y => opcodesWritingY
  | .s => opcodesWritingS
  | .pc => opcodesWritingPC
  | .c => opcodesWritingC
  | .nz => opcodesWritingNZ
  | .i => opcodesWritingI
  | .d => opcodesWritingD
  | .v => opcodesWritingV

/-- A register is the same in two CPU states. -/
def Reg.Kept (k k' : CpuState) : Reg → Prop
  | .a => k'.a = k.a
  | .x => k'.x = k.x
  | .y => k'.y = k.y
  | .s => k'.s = k.s
  | .pc => k'.pc = k.pc
  | .c => k'.p.c = k.p.c
  | .nz => k'.p.n = k.p.n ∧ k'.p.z = k.p.z
  | .i => k'.p.i = k.p.i
  | .d => k'.p.d = k.p.d
  | .v => k'.p.v = k.p.v

/-- The value of a register after a change of the registers `ws`. -/
def Reg.pick {α : Type} (ws : List Reg) (r : Reg) (old new : α) : α :=
  if r ∈ ws then new else old

theorem Reg.pick_of_notMem {α : Type} {ws : List Reg} {r : Reg} (h : r ∉ ws) (old new : α) : r.pick ws old new = old :=
  if_neg h

/-- Each register in `k'` that is not one of `ws` is as in `k`. -/
def OnlyWrites (ws : List Reg) (k k' : CpuState) : Prop :=
  k' =
    { k' with
      a := Reg.a.pick ws k.a k'.a
      x := Reg.x.pick ws k.x k'.x
      y := Reg.y.pick ws k.y k'.y
      s := Reg.s.pick ws k.s k'.s
      pc := Reg.pc.pick ws k.pc k'.pc
      p :=
        { c := Reg.c.pick ws k.p.c k'.p.c
          z := Reg.nz.pick ws k.p.z k'.p.z
          i := Reg.i.pick ws k.p.i k'.p.i
          d := Reg.d.pick ws k.p.d k'.p.d
          v := Reg.v.pick ws k.p.v k'.p.v
          n := Reg.nz.pick ws k.p.n k'.p.n } }

theorem OnlyWrites.kept {r : Reg} {ws : List Reg} {k k' : CpuState} (h : OnlyWrites ws k k') (hr : r ∉ ws) : r.Kept k k' := by
  have hp := congrArg CpuState.p h
  cases r with
  | a => exact (congrArg CpuState.a h).trans (Reg.pick_of_notMem hr _ _)
  | x => exact (congrArg CpuState.x h).trans (Reg.pick_of_notMem hr _ _)
  | y => exact (congrArg CpuState.y h).trans (Reg.pick_of_notMem hr _ _)
  | s => exact (congrArg CpuState.s h).trans (Reg.pick_of_notMem hr _ _)
  | pc => exact (congrArg CpuState.pc h).trans (Reg.pick_of_notMem hr _ _)
  | c => exact (congrArg Flags.c hp).trans (Reg.pick_of_notMem hr _ _)
  | nz => exact ⟨(congrArg Flags.n hp).trans (Reg.pick_of_notMem hr _ _), (congrArg Flags.z hp).trans (Reg.pick_of_notMem hr _ _)⟩
  | i => exact (congrArg Flags.i hp).trans (Reg.pick_of_notMem hr _ _)
  | d => exact (congrArg Flags.d hp).trans (Reg.pick_of_notMem hr _ _)
  | v => exact (congrArg Flags.v hp).trans (Reg.pick_of_notMem hr _ _)

/-- Pulling the status writes S and every flag. -/
theorem onlyWrites_status (k : CpuState) (s : Byte) (p : Flags) (m : Bool) :
    OnlyWrites [.s, .c, .nz, .i, .d, .v] k { k with s := s, p := p, iPoll := m } := rfl

/-! ### The flag D -/

/-- The CPU state with another value of D. -/
def CpuState.withD (d : Bool) (k : CpuState) : CpuState :=
  { k with p := { k.p with d := d } }

theorem withD_cpu (d : Bool) (s : State) : (withD d s).cpu = s.cpu.withD d := rfl
theorem withD_bus (d : Bool) (s : State) : (withD d s).bus = s.bus := rfl

/-- The instructions that push the status image, which has D in it, or write D. -/
abbrev pushOrWriteD : List Instr :=
  [.php, .brk, .plp, .rti, .cld, .sed]

/-- Addresses are formed with X and Y and nothing else of the CPU. -/
theorem formed_withD (m : AddrMode) (d : Bool) (k : CpuState) (b : Bus) : formed m (k.withD d) b = formed m k b := by
  cases m <;> rfl

theorem loaded_withD (o : Operand) (d : Bool) (k : CpuState) (b : Bus) : loaded o (k.withD d) b = loaded o k b := by
  cases o with
  | imm _ => rfl
  | mem m => simp only [loaded, formed_withD]

theorem stored_withD (m : AddrMode) (v : Byte) (d : Bool) (k : CpuState) (b : Bus) : stored m v (k.withD d) b = stored m v k b := by
  simp only [stored, reached, formed_withD]

theorem modified_withD (m : AddrMode) (f : Byte → Byte) (d : Bool) (k : CpuState) (b : Bus) :
    modified m f (k.withD d) b = modified m f k b := by
  simp only [modified, reached, formed_withD]

theorem storedHigh_withD (m : AddrMode) (r : Byte) (d : Bool) (k : CpuState) (b : Bus) :
    storedHigh m r (k.withD d) b = storedHigh m r k b := by
  unfold storedHigh highTarget highValue
  rw [formed_withD]

theorem branch_withD (taken : Bool) (off : Byte) (d : Bool) (s : State) :
    branch taken off (withD d s) = withD d (branch taken off s) := by
  cases taken
  · rfl
  · change State.setPc _ (if hi (s.cpu.pc + sext off) = hi s.cpu.pc then _ else _) =
      withD d (State.setPc _ (if hi (s.cpu.pc + sext off) = hi s.cpu.pc then _ else _))
    split <;> rfl

theorem branch_onlyWrites (taken : Bool) (off : Byte) (s : State) : OnlyWrites [.pc] s.cpu (branch taken off s).cpu := by
  cases taken
  · rfl
  · simp only [branch, if_true]
    split <;> rfl

/-! ### What a meaning does -/

/-- The meaning writes no register but `ws`. -/
def Writes (ws : List Reg) (op : State → Result) : Prop :=
  ∀ s t, op s = .next t → OnlyWrites ws s.cpu t.cpu

/-- The meaning does the same under the other value of D, and leaves that value. -/
def CarriesD (op : State → Result) : Prop :=
  ∀ d s t, op s = .next t → op (withD d s) = .next (withD d t)

/-- What all meanings but six do: they write no register but `ws`, and carry D. -/
structure Plain (ws : List Reg) (op : State → Result) : Prop where
  writes : Writes ws op
  carriesD : CarriesD op

theorem Writes.of_eq {ws : List Reg} {op : State → Result} {f : State → State} (he : ∀ s, op s = .next (f s))
    (hw : ∀ s, OnlyWrites ws s.cpu (f s).cpu := by intros; rfl) : Writes ws op := by
  intro s t h
  cases (he s).symm.trans h
  exact hw s

/-- A meaning is as plain as the state it leaves, as a function of the state before it. -/
theorem Plain.of_eq {ws : List Reg} {op : State → Result} {f : State → State} (he : ∀ s, op s = .next (f s))
    (hw : ∀ s, OnlyWrites ws s.cpu (f s).cpu := by intros; rfl)
    (hd : ∀ d s, f (withD d s) = withD d (f s) := by intros; rfl) : Plain ws op := by
  refine ⟨.of_eq he hw, fun d s t h => ?_⟩
  cases (he s).symm.trans h
  rw [he, hd]

section Classes

variable {ws : List Reg} {op : State → Result}

/-- The read class. -/
theorem Plain.load {o : Operand} {u : State → Byte → CpuState → CpuState} (he : ∀ s, op s = .next (afterLoad o s (u s)))
    (hw : ∀ s v k, OnlyWrites ws k (u s v k))
    (hd : ∀ d s v k, u (withD d s) v (k.withD d) = (u s v k).withD d) : Plain ws op := by
  refine .of_eq he (fun s => hw s _ _) fun d s => ?_
  simp only [afterLoad, withD_cpu, withD_bus, loaded_withD, hd]
  rfl

/-- The write class. -/
theorem Plain.store {m : AddrMode} {v : State → Byte} (he : ∀ s, op s = .next (afterStore m (v s) s))
    (hd : ∀ d s, v (withD d s) = v s) : Plain [] op := by
  refine .of_eq he (fun _ => rfl) fun d s => ?_
  simp only [afterStore, withD_cpu, withD_bus, stored_withD, hd]
  rfl

/-- The stores of R267, that write `ws` besides. -/
theorem Plain.storeHigh {m : AddrMode} {v : State → Byte} {u : CpuState → CpuState}
    (he : ∀ s, op s = .next { s with cpu := u s.cpu, bus := storedHigh m (v s) s.cpu s.bus })
    (hw : ∀ k, OnlyWrites ws k (u k))
    (hd : ∀ d s, v (withD d s) = v s)
    (hu : ∀ d k, u (k.withD d) = (u k).withD d) : Plain ws op := by
  refine .of_eq he (fun s => hw s.cpu) fun d s => ?_
  simp only [withD_cpu, withD_bus, storedHigh_withD, hd, hu]
  rfl

/-- The read-modify-write class. -/
theorem Plain.modify {m : AddrMode} {g : State → Byte → Byte} {u : State → Byte → CpuState → CpuState}
    (he : ∀ s, op s = .next (afterModify m (g s) s (u s)))
    (hw : ∀ s v k, OnlyWrites ws k (u s v k))
    (hg : ∀ d s, g (withD d s) = g s)
    (hd : ∀ d s v k, u (withD d s) v (k.withD d) = (u s v k).withD d) : Plain ws op := by
  refine .of_eq he (fun s => hw s _ _) fun d s => ?_
  simp only [afterModify, withD_cpu, withD_bus, modified_withD, hg, hd]
  rfl

/-- The branches. -/
theorem Plain.branch {taken : State → Bool} {off : Byte} (he : ∀ s, op s = .next (branch (taken s) off s))
    (hd : ∀ d s, taken (withD d s) = taken s) : Plain [.pc] op :=
  .of_eq he (fun s => branch_onlyWrites _ _ s) fun d s => by rw [hd, branch_withD]

end Classes

/-! ### The shared meanings, by mnemonic -/

theorem ldaOp_plain (o : Operand) : Plain [.a, .nz] (ldaOp o) := .load (ldaOp_eq o) (fun _ _ _ => rfl) fun _ _ _ _ => rfl
theorem ldxOp_plain (o : Operand) : Plain [.x, .nz] (ldxOp o) := .load (ldxOp_eq o) (fun _ _ _ => rfl) fun _ _ _ _ => rfl
theorem ldyOp_plain (o : Operand) : Plain [.y, .nz] (ldyOp o) := .load (ldyOp_eq o) (fun _ _ _ => rfl) fun _ _ _ _ => rfl
theorem adcOp_plain (o : Operand) : Plain [.a, .nz, .c, .v] (adcOp o) := .load (adcOp_eq o) (fun _ _ _ => rfl) fun _ _ _ _ => rfl
theorem sbcOp_plain (o : Operand) : Plain [.a, .nz, .c, .v] (sbcOp o) := .load (sbcOp_eq o) (fun _ _ _ => rfl) fun _ _ _ _ => rfl
theorem usbcOp_plain (o : Operand) : Plain [.a, .nz, .c, .v] (usbcOp o) := .load (usbcOp_eq o) (fun _ _ _ => rfl) fun _ _ _ _ => rfl
theorem andOp_plain (o : Operand) : Plain [.a, .nz] (andOp o) := .load (andOp_eq o) (fun _ _ _ => rfl) fun _ _ _ _ => rfl
theorem oraOp_plain (o : Operand) : Plain [.a, .nz] (oraOp o) := .load (oraOp_eq o) (fun _ _ _ => rfl) fun _ _ _ _ => rfl
theorem eorOp_plain (o : Operand) : Plain [.a, .nz] (eorOp o) := .load (eorOp_eq o) (fun _ _ _ => rfl) fun _ _ _ _ => rfl
theorem bitOp_plain (o : Operand) : Plain [.nz, .v] (bitOp o) := .load (bitOp_eq o) (fun _ _ _ => rfl) fun _ _ _ _ => rfl
theorem cmpOp_plain (o : Operand) : Plain [.nz, .c] (cmpOp o) := .load (cmpOp_eq o) (fun _ _ _ => rfl) fun _ _ _ _ => rfl
theorem cpxOp_plain (o : Operand) : Plain [.nz, .c] (cpxOp o) := .load (cpxOp_eq o) (fun _ _ _ => rfl) fun _ _ _ _ => rfl
theorem cpyOp_plain (o : Operand) : Plain [.nz, .c] (cpyOp o) := .load (cpyOp_eq o) (fun _ _ _ => rfl) fun _ _ _ _ => rfl
theorem laxOp_plain (o : Operand) : Plain [.a, .x, .nz] (laxOp o) := .load (laxOp_eq o) (fun _ _ _ => rfl) fun _ _ _ _ => rfl
theorem lasOp_plain (o : Operand) : Plain [.a, .x, .s, .nz] (lasOp o) := .load (lasOp_eq o) (fun _ _ _ => rfl) fun _ _ _ _ => rfl
theorem ancOp_plain (o : Operand) : Plain [.a, .nz, .c] (ancOp o) := .load (ancOp_eq o) (fun _ _ _ => rfl) fun _ _ _ _ => rfl
theorem alrOp_plain (o : Operand) : Plain [.a, .nz, .c] (alrOp o) := .load (alrOp_eq o) (fun _ _ _ => rfl) fun _ _ _ _ => rfl
theorem arrOp_plain (o : Operand) : Plain [.a, .nz, .c, .v] (arrOp o) := .load (arrOp_eq o) (fun _ _ _ => rfl) fun _ _ _ _ => rfl
theorem sbxOp_plain (o : Operand) : Plain [.x, .nz, .c] (sbxOp o) := .load (sbxOp_eq o) (fun _ _ _ => rfl) fun _ _ _ _ => rfl
theorem aneOp_plain (o : Operand) : Plain [.a, .nz] (aneOp o) := .load (aneOp_eq o) (fun _ _ _ => rfl) fun _ _ _ _ => rfl
theorem lxaOp_plain (o : Operand) : Plain [.a, .x, .nz] (lxaOp o) := .load (lxaOp_eq o) (fun _ _ _ => rfl) fun _ _ _ _ => rfl
theorem nopOp_plain (o : Operand) : Plain [] (nopOp o) := .load (nopOp_eq o) (fun _ _ _ => rfl) fun _ _ _ _ => rfl
theorem staOp_plain (m : AddrMode) : Plain [] (staOp m) := .store (staOp_eq m) fun _ _ => rfl
theorem stxOp_plain (m : AddrMode) : Plain [] (stxOp m) := .store (stxOp_eq m) fun _ _ => rfl
theorem styOp_plain (m : AddrMode) : Plain [] (styOp m) := .store (styOp_eq m) fun _ _ => rfl
theorem saxOp_plain (m : AddrMode) : Plain [] (saxOp m) := .store (saxOp_eq m) fun _ _ => rfl
theorem shaOp_plain (m : AddrMode) : Plain [] (shaOp m) := .storeHigh (u := id) (shaOp_eq m) (fun _ => rfl) (fun _ _ => rfl) fun _ _ => rfl
theorem shxOp_plain (m : AddrMode) : Plain [] (shxOp m) := .storeHigh (u := id) (shxOp_eq m) (fun _ => rfl) (fun _ _ => rfl) fun _ _ => rfl
theorem shyOp_plain (m : AddrMode) : Plain [] (shyOp m) := .storeHigh (u := id) (shyOp_eq m) (fun _ => rfl) (fun _ _ => rfl) fun _ _ => rfl
theorem tasOp_plain (m : AddrMode) : Plain [.s] (tasOp m) :=
  .storeHigh (u := fun k => { k with s := k.a &&& k.x }) (tasOp_eq m) (fun _ => rfl) (fun _ _ => rfl) fun _ _ => rfl
theorem incOp_plain (m : AddrMode) : Plain [.nz] (incOp m) := .modify (incOp_eq m) (fun _ _ _ => rfl) (fun _ _ => rfl) fun _ _ _ _ => rfl
theorem decOp_plain (m : AddrMode) : Plain [.nz] (decOp m) := .modify (decOp_eq m) (fun _ _ _ => rfl) (fun _ _ => rfl) fun _ _ _ _ => rfl
theorem aslOp_plain (m : AddrMode) : Plain [.nz, .c] (aslOp m) := .modify (aslOp_eq m) (fun _ _ _ => rfl) (fun _ _ => rfl) fun _ _ _ _ => rfl
theorem lsrOp_plain (m : AddrMode) : Plain [.nz, .c] (lsrOp m) := .modify (lsrOp_eq m) (fun _ _ _ => rfl) (fun _ _ => rfl) fun _ _ _ _ => rfl
theorem rolOp_plain (m : AddrMode) : Plain [.nz, .c] (rolOp m) := .modify (rolOp_eq m) (fun _ _ _ => rfl) (fun _ _ => rfl) fun _ _ _ _ => rfl
theorem rorOp_plain (m : AddrMode) : Plain [.nz, .c] (rorOp m) := .modify (rorOp_eq m) (fun _ _ _ => rfl) (fun _ _ => rfl) fun _ _ _ _ => rfl
theorem sloOp_plain (m : AddrMode) : Plain [.a, .nz, .c] (sloOp m) := .modify (sloOp_eq m) (fun _ _ _ => rfl) (fun _ _ => rfl) fun _ _ _ _ => rfl
theorem rlaOp_plain (m : AddrMode) : Plain [.a, .nz, .c] (rlaOp m) := .modify (rlaOp_eq m) (fun _ _ _ => rfl) (fun _ _ => rfl) fun _ _ _ _ => rfl
theorem sreOp_plain (m : AddrMode) : Plain [.a, .nz, .c] (sreOp m) := .modify (sreOp_eq m) (fun _ _ _ => rfl) (fun _ _ => rfl) fun _ _ _ _ => rfl
theorem rraOp_plain (m : AddrMode) : Plain [.a, .nz, .c, .v] (rraOp m) := .modify (rraOp_eq m) (fun _ _ _ => rfl) (fun _ _ => rfl) fun _ _ _ _ => rfl
theorem iscOp_plain (m : AddrMode) : Plain [.a, .nz, .c, .v] (iscOp m) := .modify (iscOp_eq m) (fun _ _ _ => rfl) (fun _ _ => rfl) fun _ _ _ _ => rfl
theorem dcpOp_plain (m : AddrMode) : Plain [.nz, .c] (dcpOp m) := .modify (dcpOp_eq m) (fun _ _ _ => rfl) (fun _ _ => rfl) fun _ _ _ _ => rfl

/-! ### The meanings that push the status image or pull it -/

theorem fetchByte_cpu (s : State) : s.fetchByte.2.cpu = { s.cpu with pc := s.cpu.pc + 1 } := rfl

theorem pushed_cpu (v : Byte) (s : State) : (pushed v s).cpu = { s.cpu with s := (pushed v s).cpu.s } := rfl

theorem pulled_cpu (s : State) : (pulled s).2.cpu = { s.cpu with s := (pulled s).2.cpu.s } := rfl

theorem savedFrame_cpu (a : Addr) (v : Byte) (s : State) : ∃ r, (savedFrame a v s).cpu = { s.cpu with s := r } := by
  refine ⟨(savedFrame a v s).cpu.s, ?_⟩
  unfold savedFrame
  rw [pushed_cpu v, pushed_cpu (lowByte a), pushed_cpu (highByte a)]

theorem execBrk_writes : Writes [.pc, .s, .i] execBrk := by
  intro s t h
  cases h
  rw [show (0xFFFE : Addr) = cell 0xFFFE from rfl, enterInterrupt_eq]
  dsimp only
  obtain ⟨r, hr⟩ := savedFrame_cpu s.fetchByte.2.cpu.pc (statusImage true s.fetchByte.2.cpu.p) s.fetchByte.2
  rw [hr, fetchByte_cpu]
  rfl

theorem execPlp_writes : Writes [.s, .c, .nz, .i, .d, .v] execPlp :=
  .of_eq (fun _ => rfl) fun s => onlyWrites_status s.cpu _ _ _

theorem execRti_writes : Writes [.pc, .s, .c, .nz, .i, .d, .v] execRti := by
  intro s t h
  cases h
  rw [leaveInterrupt_eq]
  dsimp only
  rw [pulled_cpu, pulled_cpu (pulled _).2, pulled_cpu { s.idle with bus := _ }]
  rfl

/-! ### Every instruction -/

/-- What is said of every instruction: what it writes has its opcode in the spec's lists, and it carries D unless it pushes or writes it. -/
structure Instr.Lists (i : Instr) (ws : List Reg) : Prop where
  writes : Writes ws (exec i)
  listed : ∀ r ∈ ws, i.opcode ∈ r.writers
  carriesD : i ∈ pushOrWriteD ∨ CarriesD (exec i)

theorem Instr.opcode_of_encode {i : Instr} {op : Byte} {rest : List Byte} (h : encode i = op :: rest) : i.opcode = op := by
  rw [Instr.opcode, h, List.headD_cons]

theorem Instr.Lists.of_plain {i : Instr} {op : Byte} {rest : List Byte} {ws : List Reg} (h : Plain ws (exec i)) (he : encode i = op :: rest)
    (hl : ∀ r ∈ ws, op ∈ r.writers := by decide) : Instr.Lists i ws :=
  ⟨h.writes, (Instr.opcode_of_encode he).symm ▸ hl, .inr h.carriesD⟩

/-- An instruction that pushes the status image or writes D. -/
theorem Instr.Lists.of_status {i : Instr} {op : Byte} {rest : List Byte} {ws : List Reg} (h : Writes ws (exec i)) (he : encode i = op :: rest)
    (hi : i ∈ pushOrWriteD := by decide) (hl : ∀ r ∈ ws, op ∈ r.writers := by decide) : Instr.Lists i ws :=
  ⟨h, (Instr.opcode_of_encode he).symm ▸ hl, .inl hi⟩

theorem exec_lists (i : Instr) : ∃ ws, Instr.Lists i ws := by
  cases i
  case ldaIzx | ldaZp | ldaImm | ldaAbs | ldaIzy | ldaZpx | ldaAby | ldaAbx => exact ⟨_, .of_plain (ldaOp_plain _) rfl⟩
  case ldxImm | ldxZp | ldxAbs | ldxZpy | ldxAby => exact ⟨_, .of_plain (ldxOp_plain _) rfl⟩
  case ldyImm | ldyZp | ldyAbs | ldyZpx | ldyAbx => exact ⟨_, .of_plain (ldyOp_plain _) rfl⟩
  case adcIzx | adcZp | adcImm | adcAbs | adcIzy | adcZpx | adcAby | adcAbx => exact ⟨_, .of_plain (adcOp_plain _) rfl⟩
  case sbcIzx | sbcZp | sbcImm | sbcAbs | sbcIzy | sbcZpx | sbcAby | sbcAbx => exact ⟨_, .of_plain (sbcOp_plain _) rfl⟩
  case usbcImm => exact ⟨_, .of_plain (usbcOp_plain _) rfl⟩
  case andIzx | andZp | andImm | andAbs | andIzy | andZpx | andAby | andAbx => exact ⟨_, .of_plain (andOp_plain _) rfl⟩
  case oraIzx | oraZp | oraImm | oraAbs | oraIzy | oraZpx | oraAby | oraAbx => exact ⟨_, .of_plain (oraOp_plain _) rfl⟩
  case eorIzx | eorZp | eorImm | eorAbs | eorIzy | eorZpx | eorAby | eorAbx => exact ⟨_, .of_plain (eorOp_plain _) rfl⟩
  case bitZp | bitAbs => exact ⟨_, .of_plain (bitOp_plain _) rfl⟩
  case cmpIzx | cmpZp | cmpImm | cmpAbs | cmpIzy | cmpZpx | cmpAby | cmpAbx => exact ⟨_, .of_plain (cmpOp_plain _) rfl⟩
  case cpxImm | cpxZp | cpxAbs => exact ⟨_, .of_plain (cpxOp_plain _) rfl⟩
  case cpyImm | cpyZp | cpyAbs => exact ⟨_, .of_plain (cpyOp_plain _) rfl⟩
  case laxIzx | laxZp | laxAbs | laxIzy | laxZpy | laxAby => exact ⟨_, .of_plain (laxOp_plain _) rfl⟩
  case lasAby => exact ⟨_, .of_plain (lasOp_plain _) rfl⟩
  case anc0B | anc2B => exact ⟨_, .of_plain (ancOp_plain _) rfl⟩
  case alrImm => exact ⟨_, .of_plain (alrOp_plain _) rfl⟩
  case arrImm => exact ⟨_, .of_plain (arrOp_plain _) rfl⟩
  case sbxImm => exact ⟨_, .of_plain (sbxOp_plain _) rfl⟩
  case aneImm => exact ⟨_, .of_plain (aneOp_plain _) rfl⟩
  case lxaImm => exact ⟨_, .of_plain (lxaOp_plain _) rfl⟩
  case nopZp04 | nopAbs0C | nopZpx14 | nopAbx1C | nopZpx34 | nopAbx3C | nopZp44 | nopZpx54 | nopAbx5C | nopZp64 | nopZpx74 |
      nopAbx7C | nopImm80 | nopImm82 | nopImm89 | nopImmC2 | nopZpxD4 | nopAbxDC | nopImmE2 | nopZpxF4 | nopAbxFC =>
    exact ⟨_, .of_plain (nopOp_plain _) rfl⟩
  case staIzx | staZp | staAbs | staIzy | staZpx | staAby | staAbx => exact ⟨_, .of_plain (staOp_plain _) rfl⟩
  case stxZp | stxAbs | stxZpy => exact ⟨_, .of_plain (stxOp_plain _) rfl⟩
  case styZp | styAbs | styZpx => exact ⟨_, .of_plain (styOp_plain _) rfl⟩
  case saxIzx | saxZp | saxAbs | saxZpy => exact ⟨_, .of_plain (saxOp_plain _) rfl⟩
  case shaIzy | shaAby => exact ⟨_, .of_plain (shaOp_plain _) rfl⟩
  case shxAby => exact ⟨_, .of_plain (shxOp_plain _) rfl⟩
  case shyAbx => exact ⟨_, .of_plain (shyOp_plain _) rfl⟩
  case tasAby => exact ⟨_, .of_plain (tasOp_plain _) rfl⟩
  case incZp | incAbs | incZpx | incAbx => exact ⟨_, .of_plain (incOp_plain _) rfl⟩
  case decZp | decAbs | decZpx | decAbx => exact ⟨_, .of_plain (decOp_plain _) rfl⟩
  case aslZp | aslAbs | aslZpx | aslAbx => exact ⟨_, .of_plain (aslOp_plain _) rfl⟩
  case lsrZp | lsrAbs | lsrZpx | lsrAbx => exact ⟨_, .of_plain (lsrOp_plain _) rfl⟩
  case rolZp | rolAbs | rolZpx | rolAbx => exact ⟨_, .of_plain (rolOp_plain _) rfl⟩
  case rorZp | rorAbs | rorZpx | rorAbx => exact ⟨_, .of_plain (rorOp_plain _) rfl⟩
  case sloIzx | sloZp | sloAbs | sloIzy | sloZpx | sloAby | sloAbx => exact ⟨_, .of_plain (sloOp_plain _) rfl⟩
  case rlaIzx | rlaZp | rlaAbs | rlaIzy | rlaZpx | rlaAby | rlaAbx => exact ⟨_, .of_plain (rlaOp_plain _) rfl⟩
  case sreIzx | sreZp | sreAbs | sreIzy | sreZpx | sreAby | sreAbx => exact ⟨_, .of_plain (sreOp_plain _) rfl⟩
  case rraIzx | rraZp | rraAbs | rraIzy | rraZpx | rraAby | rraAbx => exact ⟨_, .of_plain (rraOp_plain _) rfl⟩
  case iscIzx | iscZp | iscAbs | iscIzy | iscZpx | iscAby | iscAbx => exact ⟨_, .of_plain (iscOp_plain _) rfl⟩
  case dcpIzx | dcpZp | dcpAbs | dcpIzy | dcpZpx | dcpAby | dcpAbx => exact ⟨_, .of_plain (dcpOp_plain _) rfl⟩
  case bpl | bmi | bvc | bvs | bcc | bcs | bne | beq => exact ⟨_, .of_plain (.branch (fun _ => rfl) fun _ _ => rfl) rfl⟩
  case tax | tsx | inx | dex => exact ⟨[.x, .nz], .of_plain (.of_eq fun _ => rfl) rfl⟩
  case tay | iny | dey => exact ⟨[.y, .nz], .of_plain (.of_eq fun _ => rfl) rfl⟩
  case txa | tya => exact ⟨[.a, .nz], .of_plain (.of_eq fun _ => rfl) rfl⟩
  case txs => exact ⟨[.s], .of_plain (.of_eq fun _ => rfl) rfl⟩
  case aslAcc | lsrAcc | rolAcc | rorAcc => exact ⟨[.a, .nz, .c], .of_plain (.of_eq fun _ => rfl) rfl⟩
  case clc | sec => exact ⟨[.c], .of_plain (.of_eq fun _ => rfl) rfl⟩
  case cli | sei => exact ⟨[.i], .of_plain (.of_eq fun _ => rfl) rfl⟩
  case clv => exact ⟨[.v], .of_plain (.of_eq fun _ => rfl) rfl⟩
  case nop | nopImp1A | nopImp3A | nopImp5A | nopImp7A | nopImpDA | nopImpFA | jam02 | jam12 | jam22 | jam32 | jam42 | jam52 | jam62 |
      jam72 | jam92 | jamB2 | jamD2 | jamF2 =>
    exact ⟨[], .of_plain (.of_eq fun _ => rfl) rfl⟩
  case jmpAbs | jmpInd => exact ⟨[.pc], .of_plain (.of_eq fun _ => rfl) rfl⟩
  case jsrAbs | rts => exact ⟨[.pc, .s], .of_plain (.of_eq fun _ => rfl) rfl⟩
  case pha => exact ⟨[.s], .of_plain (.of_eq fun _ => rfl) rfl⟩
  case pla => exact ⟨[.a, .nz, .s], .of_plain (.of_eq fun _ => rfl) rfl⟩
  case php => exact ⟨[.s], .of_status (.of_eq fun _ => rfl) rfl⟩
  case plp => exact ⟨_, .of_status execPlp_writes rfl⟩
  case cld | sed => exact ⟨[.d], .of_status (.of_eq fun _ => rfl) rfl⟩
  case brk => exact ⟨_, .of_status execBrk_writes rfl⟩
  case rti => exact ⟨_, .of_status execRti_writes rfl⟩

/-! ### The statements -/

/-- A register is kept by every instruction whose opcode is not in the register's list. -/
theorem exec_kept {i : Instr} {s t : State} (h : exec i s = .next t) (r : Reg) (hr : i.opcode ∉ r.writers) : r.Kept s.cpu t.cpu := by
  obtain ⟨ws, hi⟩ := exec_lists i
  exact (hi.writes s t h).kept fun hmem => hr (hi.listed r hmem)

/-- Settles O49: each register's list covers the instructions that write it; the rest is what every instruction keeps (`State.Follows`). -/
theorem onlyTheListedOpcodesWriteEachRegister : Obligations.OnlyTheListedOpcodesWriteEachRegister := by
  unfold Obligations.OnlyTheListedOpcodesWriteEachRegister
  intro i s t h
  have hf := follows_of_exec h
  exact ⟨exec_kept h .a, exec_kept h .x, exec_kept h .y, exec_kept h .s, exec_kept h .pc, exec_kept h .c, exec_kept h .nz,
    exec_kept h .i, exec_kept h .d, exec_kept h .v, hf.nmiPending, hf.nmiPrev, hf.resetPending, hf.cycles, hf.params⟩

/-- Settles O50: every meaning that neither pushes nor writes D carries it through. -/
theorem decimalFlagChangesNoComputation : Obligations.DecimalFlagChangesNoComputation := by
  unfold Obligations.DecimalFlagChangesNoComputation
  intro i s t d hi h
  obtain ⟨ws, hl⟩ := exec_lists i
  exact hl.carriesD.resolve_left hi d s t h

end Sys2Proof.Machine
end

section
/-! PROOFS. The reset sequence (70_reset R362) as the first step from power-on (R360; 10_state R48), and the device ticks of that step: the PPU is in a
line where no flag is raised by position (60_exceptions R323). -/

namespace Sys2Proof.Machine

/-! ### The reset sequence -/

/-- The CPU step of a state with a reset pending (60_exceptions R329). -/
theorem cpuStep_of_resetPending {s : State} (h : s.cpu.resetPending = true) :
    cpuStep s = .next s.beginStep.resetSequence.countCycles := by
  unfold cpuStep
  exact if_pos h

/-- The Bus after the five accesses of the reset sequence that come before the vector's: two at PC, then three at the stack. -/
def resetAccesses (s : State) : Bus :=
  let fetches := ((s.bus.read s.cpu.pc).2.read s.cpu.pc).2
  let first := (fetches.read (stackCell s.cpu.s)).2
  let second := (first.read (stackCell (s.cpu.s - 1))).2
  (second.read (stackCell (s.cpu.s - 1 - 1))).2

theorem resetSequence_eq (s : State) :
    s.resetSequence =
      { s with
        cpu :=
          { s.cpu with
            s := s.cpu.s - 1 - 1 - 1
            pc := (vectorRead 0xFFFC (resetAccesses s)).1
            p := { s.cpu.p with i := true }
            nmiPending := false
            resetPending := false
            iPoll := true
            pollSuppress := true
            jammed := false }
        bus := (vectorRead 0xFFFC (resetAccesses s)).2 } := by
  rw [State.resetSequence, show resetVector = cell 0xFFFC from rfl]
  simp only [loadVector_eq, State.suppressedPush, State.idle, State.dummyRead, State.read, stackAddr_eq, resetAccesses,
    State.withCpu, State.withBus, State.setFlags]

theorem resetAccesses_byteAt (s : State) (a : Addr) : (resetAccesses s).byteAt a = s.bus.byteAt a := by
  simp only [resetAccesses, Bus.byteAt_read]

theorem resetAccesses_log_length (s : State) : (resetAccesses s).log.length = s.bus.log.length + 5 := by
  simp only [resetAccesses, Bus.read_log, List.length_cons]

theorem vectorRead_byteAt (n : Nat) (b : Bus) (a : Addr) : (vectorRead n b).2.byteAt a = b.byteAt a := by
  simp only [vectorRead, Bus.byteAt_read]

theorem vectorRead_log_length (n : Nat) (b : Bus) : (vectorRead n b).2.log.length = b.log.length + 2 := by
  simp only [vectorRead, Bus.read_log, List.length_cons]

/-- A vector in storage: the address it holds, and its high byte on the data bus (20_memory R62, R64). -/
theorem vectorRead_of_byteAt {n : Nat} {b : Bus} {l h : Byte} (hl : b.byteAt (cell n) = some l) (hh : b.byteAt (cell (n + 1)) = some h) :
    (vectorRead n b).1 = joined h l ∧ (vectorRead n b).2.openBus = h := by
  have hhigh : ((b.read (cell n)).2.read (cell (n + 1))).1 = h := Bus.read_of_byteAt ((Bus.byteAt_read _ _ _).trans hh)
  simp only [vectorRead, Bus.read_openBus, hhigh, Bus.read_of_byteAt hl, and_self]

/-- The RESET vector lies in the PRG image (20_memory R64, R67). -/
theorem resetVector_inStorage (b : Bus) : ∃ l h, b.byteAt 0xFFFC = some l ∧ b.byteAt 0xFFFD = some h :=
  ⟨_, _, rfl, rfl⟩

/-- RAM that nothing has written holds RAM_INIT (20_memory R68). -/
theorem Bus.byteAt_ramInit {b : Bus} (h : b.ram = []) {a : Addr} (ha : a.toNat < 0x800) : b.byteAt a = some (Config.ramInit a.toNat) := by
  have hr : route a = .ram a.toNat := by
    rw [route, if_pos (by omega), Nat.mod_eq_of_lt ha]
  rw [Bus.byteAt, hr, h]
  rfl

/-! ### Device ticks in a line where no flag is raised -/

/-- In the first visible line no flag is raised or cleared by the position, but the rendering work may set the sprite flags (log 10). -/
theorem PpuState.tick_of_line_zero (region : Region) {p : PpuState} (hs : p.scanline = 0) (hd : p.dot < 340) :
    p.tick region =
      { p with
        dot := p.dot + 1
        ticks := p.ticks + 1
        sprite0Hit := p.sprite0Hit || Config.sprite0Sets p.ticks
        spriteOverflow := p.spriteOverflow || Config.spriteOverflowSets p.ticks } := by
  have hraise : p.raiseFlags = p := by
    simp [PpuState.raiseFlags, hs]
  have hend : p.render.atLineEnd region = false := by
    simp [PpuState.atLineEnd, PpuState.render, hs, Nat.ne_of_lt hd]
  rw [PpuState.tick, hraise, hend]
  rfl

/-- Ticks in that line move the dot and may set the sprite flags; without vblank the NMI line is low, and nothing else of the CPU can change. -/
theorem repeatTick_ppu_of_line_zero (n : Nat) {s : State} (hs : s.bus.ppu.scanline = 0) (hd : s.bus.ppu.dot + n ≤ 340)
    (hv : s.bus.ppu.vblank = false) (hp : s.cpu.nmiPrev = false) :
    let t := repeatTick State.ppuTick n s
    t.cpu = s.cpu ∧ t.bus.apu = s.bus.apu ∧
      t.bus.ppu =
        { s.bus.ppu with
          dot := s.bus.ppu.dot + n
          ticks := s.bus.ppu.ticks + n
          sprite0Hit := t.bus.ppu.sprite0Hit
          spriteOverflow := t.bus.ppu.spriteOverflow } := by
  induction n generalizing s with
  | zero => exact ⟨rfl, rfl, rfl⟩
  | succ n ih =>
    have htick := PpuState.tick_of_line_zero s.params.region hs (by omega : s.bus.ppu.dot < 340)
    have hppu : s.ppuTick.bus.ppu = s.bus.ppu.tick s.params.region := rfl
    rw [htick] at hppu
    have hcpu : s.ppuTick.cpu = s.cpu := by
      rw [State.ppuTick_cpu, htick]
      simp only [PpuState.nmiLine, hv, Bool.false_and, Bool.or_false]
      rw [← hp]
    obtain ⟨hc, ha, hb⟩ := ih (s := s.ppuTick)
      (by rw [hppu]; exact hs) (by rw [hppu]; simp only; omega) (by rw [hppu]; exact hv) (by rw [hcpu, hp])
    refine ⟨hc.trans hcpu, ha, hb.trans ?_⟩
    rw [hppu]
    simp only [Nat.add_assoc, Nat.add_comm 1 n]
    rfl

/-- APU ticks count themselves and may set the two IRQ flags (log 9). -/
theorem repeatTick_apu_frame (n : Nat) (s : State) :
    let t := repeatTick State.apuTick n s
    t.cpu = s.cpu ∧ t.bus.ppu = s.bus.ppu ∧
      t.bus.apu = { s.bus.apu with ticks := s.bus.apu.ticks + n, frameIrq := t.bus.apu.frameIrq, dmcIrq := t.bus.apu.dmcIrq } := by
  induction n generalizing s with
  | zero => exact ⟨rfl, rfl, rfl⟩
  | succ n ih =>
    obtain ⟨hc, hp, ha⟩ := ih s.apuTick
    refine ⟨hc, hp, ha.trans ?_⟩
    simp only [State.apuTick_bus, ApuState.tick, Nat.add_assoc, Nat.add_comm 1 n]
    rfl

/-! ### The first step from power-on -/

/-- State.reset with the devices as they are at power-on: before the ticks owed for the first step. -/
def State.resetUnticked : State :=
  { State.reset with bus := { State.reset.bus with ppu := PpuState.powerOn, apu := ApuState.powerOn } }

/-- The CPU's part of the first step with the empty cartridge (log 5). -/
theorem cpuStep_powerOn_empty : cpuStep (State.powerOn Params.reset .zero Mapper.empty) = .next State.resetUnticked :=
  rfl

/-- The first CPU step from power-on (10_state R48). -/
theorem powerOn_cpuStep (params : Params) (regs : PowerOnRegs) (cartridge : Mapper) : ∃ (t : State) (l h : Byte),
    cpuStep (State.powerOn params regs cartridge) = .next t ∧
      t.cpu =
        { CpuState.powerOn regs with
          s := 0xFD, pc := joined h l, p := Flags.reset, resetPending := false, pollSuppress := true, cycles := 7 } ∧
      t.bus.openBus = h ∧ t.bus.byteAt 0xFFFC = some l ∧ t.bus.byteAt 0xFFFD = some h ∧
      ∀ a : Addr, a.toNat < 0x800 → t.bus.byteAt a = some (Config.ramInit a.toNat) := by
  let s := State.powerOn params regs cartridge
  obtain ⟨l, h, hl, hh⟩ := resetVector_inStorage s.bus
  have hc := cpuStep_of_resetPending (s := s) rfl
  rw [resetSequence_eq] at hc
  obtain ⟨hpc, hopen⟩ := vectorRead_of_byteAt (n := 0xFFFC) (b := resetAccesses s.beginStep) ((resetAccesses_byteAt _ _).trans hl)
    ((resetAccesses_byteAt _ _).trans hh)
  have hbytes (a : Addr) : (vectorRead 0xFFFC (resetAccesses s.beginStep)).2.byteAt a = s.bus.byteAt a :=
    (vectorRead_byteAt _ _ a).trans (resetAccesses_byteAt _ a)
  refine ⟨_, l, h, hc, ?_, hopen, (hbytes _).trans hl, (hbytes _).trans hh, fun a ha => (hbytes a).trans (Bus.byteAt_ramInit rfl ha)⟩
  have hs : s.beginStep.cpu.s - 1 - 1 - 1 = 0xFD := (by decide : (0x00 : Byte) - 1 - 1 - 1 = 0xFD)
  rw [State.countCycles_cpu, hpc, vectorRead_log_length, resetAccesses_log_length, hs]
  rfl

/-- The ticks owed for the first step (60_exceptions R331): 21 of the PPU and 7 of the APU, from their states at power-on. -/
theorem runDevices_powerOn {s : State} (hp : s.bus.ppu = PpuState.powerOn) (hr : s.params.region = .ntsc) (hc : s.stepCycles = 7)
    (hn : s.cpu.nmiPrev = false) :
    let t := s.runDevices
    t.cpu = s.cpu ∧
      t.bus.apu = { s.bus.apu with ticks := s.bus.apu.ticks + 7, frameIrq := t.bus.apu.frameIrq, dmcIrq := t.bus.apu.dmcIrq } ∧
      t.bus.ppu =
        { PpuState.powerOn with
          dot := 21, ticks := 21, sprite0Hit := t.bus.ppu.sprite0Hit, spriteOverflow := t.bus.ppu.spriteOverflow } := by
  let s' : State := { s with dotFrac := nextDotFrac s.params.region s.dotFrac s.stepCycles }
  let u := repeatTick State.ppuTick 21 s'
  have hk : ppuTicks s.params.region s.dotFrac s.stepCycles = 21 := by rw [hr, hc]; rfl
  have ht : s.runDevices = repeatTick State.apuTick 7 u := by
    change repeatTick State.apuTick s.stepCycles (repeatTick State.ppuTick (ppuTicks s.params.region s.dotFrac s.stepCycles) s') = _
    rw [hk, hc]
  obtain ⟨hucpu, huapu, huppu⟩ := repeatTick_ppu_of_line_zero 21 (s := s') (congrArg PpuState.scanline hp)
    (hp.symm ▸ (by decide : PpuState.powerOn.dot + 21 ≤ 340)) (congrArg PpuState.vblank hp) hn
  obtain ⟨hcpu, hppu, hapu⟩ := repeatTick_apu_frame 7 u
  rw [ht]
  refine ⟨hcpu.trans hucpu, hapu.trans ?_, hppu.trans (huppu.trans ?_)⟩
  · rw [huapu]
  · rw [hp, hppu]
    rfl

/-- Settles O34: the reset sequence runs first (R362), reads the RESET vector from the PRG image and writes nothing; then, for State.reset, the 21 PPU
ticks and 7 APU ticks. -/
theorem powerOnStepGivesTheResetValues : Obligations.PowerOnStepGivesTheResetValues := by
  unfold Obligations.PowerOnStepGivesTheResetValues
  constructor
  · intro params regs cartridge
    obtain ⟨t, l, h, hc, hcpu, hopen, hl, hh, hram⟩ := powerOn_cpuStep params regs cartridge
    refine ⟨t, l, h, hc, ?_⟩
    rw [hcpu]
    exact ⟨fun hr => hr ▸ ⟨rfl, rfl, rfl⟩, fun hr => hr ▸ ⟨rfl, rfl, rfl⟩, rfl, rfl, hl, hh, rfl, hopen, rfl, rfl, rfl, rfl, rfl,
      rfl, rfl, hram⟩
  · obtain ⟨hcpu, hapu, hppu⟩ := runDevices_powerOn (s := State.resetUnticked) rfl rfl rfl rfl
    have hk := State.resetUnticked.runDevices_keeps
    refine ⟨State.resetUnticked.runDevices, step_next_iff.2 ⟨by decide, _, cpuStep_powerOn_empty, rfl⟩, ?_⟩
    exact ⟨hcpu, hk.ram, hk.openBus, hk.mapper, hk.log, hk.strobe, hk.dmaRequest, hk.deviceReads, hk.dotFrac, hk.stepCycles, hk.params,
      hapu, hppu⟩

end Sys2Proof.Machine
end

section
/-! PROOFS. The invariant over one step (60_exceptions R323, R328, R331): the CPU step keeps it (`StepKeeps`), and so do the device ticks owed for it
(`DevicesKeep`). -/

namespace Sys2Proof.Machine

/-- The CPU step moves no PPU position and leaves no DMA request over. -/
theorem StepKeeps.inv {s t : State} (h : StepKeeps s t) (hs : s.Inv) : t.Inv := by
  obtain ⟨hwf, hbounds, hfrac, -⟩ := hs
  refine ⟨h.wf hwf, ?_, h.dotFrac ▸ hfrac, h.dmaRequest⟩
  unfold PpuState.inBounds
  rw [h.scanline, h.dot, h.params]
  exact hbounds

/-- The device ticks change no store. -/
theorem DevicesKeep.inv {s t : State} {ppu apu : Nat} (h : DevicesKeep s t ppu apu) (hs : s.Inv) : t.Inv := by
  obtain ⟨hwf, hbounds, hfrac, hdma⟩ := hs
  refine ⟨?_, h.bounds hbounds, h.dotFrac ▸ hfrac, h.dmaRequest.trans hdma⟩
  unfold Bus.storesWf
  rw [h.ram, h.oam, h.mapper, h.channels]
  exact hwf

/-- The remainder is carried before the ticks run, so the ticks start from a state that has the invariant too. -/
theorem State.runDevices_inv {s : State} (hs : s.Inv) : s.runDevices.Inv := by
  obtain ⟨hwf, hbounds, hfrac, hdma⟩ := hs
  exact s.runDevices_keeps.inv ⟨hwf, hbounds, nextDotFrac_lt s.stepCycles hfrac, hdma⟩

/-- Settles O57: a step is a CPU step and the device ticks owed for it (`step_next_iff`), and each of the two keeps the invariant, the cartridge and the
parameters. -/
theorem everyStepKeepsTheInvariant : Obligations.EveryStepKeepsTheInvariant := by
  unfold Obligations.EveryStepKeepsTheInvariant
  intro s t hs h
  obtain ⟨-, u, hu, rfl⟩ := step_next_iff.1 h
  have hcpu := cpuStep_keeps hu
  have hdevices := u.runDevices_keeps
  exact ⟨State.runDevices_inv (hcpu.inv hs), hdevices.mapper.trans hcpu.mapper, hdevices.params.trans hcpu.params⟩

end Sys2Proof.Machine
end

section
/-! PROOFS. One bus access by the range its address lies in (20_memory R58): what a read returns and changes (R52, R59, R60, R62, R67), and what a write
changes (R53, R60, R61, R69). -/

namespace Sys2Proof.Machine

/-! ### The four ranges of the partition (R58) -/

theorem route_of_ram {a : Addr} (h : a.toNat < 0x2000) : route a = .ram (a.toNat % 0x800) :=
  if_pos h

theorem route_of_ppuIndex {a : Addr} {k : Nat} (h : ppuIndex a k) : route a = .ppu (PpuReg.ofIndex k) := by
  obtain ⟨hlo, hhi, rfl⟩ := h
  rw [route, if_neg (Nat.not_lt.2 hlo), if_pos hhi]

theorem route_of_io {a : Addr} (hlo : 0x4000 ≤ a.toNat) (hhi : a.toNat < 0x4018) : route a = .io (IoReg.ofAddress a.toNat) := by
  rw [route, if_neg (by omega), if_neg (Nat.not_lt.2 hlo), if_pos hhi]

theorem route_of_cartridge {a : Addr} (h : 0x4018 ≤ a.toNat) : route a = .cartridge a := by
  rw [route, if_neg (by omega), if_neg (by omega), if_neg (Nat.not_lt.2 h)]

theorem IoReg.ofAddress_channel {n : Nat} (hhi : n ≤ 0x4013) (hne : n ≠ 0x4010) : IoReg.ofAddress n = .channel n := by
  rw [IoReg.ofAddress, if_neg hne, if_neg (by omega), if_neg (by omega), if_neg (by omega), if_neg (by omega)]

/-- The mirrors of a PPU register reach what its first address reaches (R60). -/
theorem route_ppuMirror {a : Addr} (hlo : 0x2000 ≤ a.toNat) (hhi : a.toNat < 0x4000) :
    route a = route (cell (0x2000 + a.toNat % 8)) := by
  have hcell : (cell (0x2000 + a.toNat % 8)).toNat = 0x2000 + a.toNat % 8 := by
    rw [cell_toNat]
    omega
  have hc : ppuIndex (cell (0x2000 + a.toNat % 8)) (a.toNat % 8) := by
    rw [ppuIndex, hcell]
    omega
  rw [route_of_ppuIndex hc]
  exact route_of_ppuIndex ⟨hlo, hhi, rfl⟩

/-! ### An access by what its address reaches -/

theorem Bus.write_of_route {a : Addr} {t : Target} (h : route a = t) (v : Byte) (b : Bus) :
    b.write a v = { b.deliver v t with openBus := v, log := ⟨a, .write, v⟩ :: b.log } := by
  rw [Bus.write, h]

/-- Two addresses that reach the same are read alike, but for the address in the log. -/
theorem Bus.read_of_route_eq {a c : Addr} (h : route a = route c) (b : Bus) :
    b.read a = ((b.read c).1, { (b.read c).2 with log := ⟨a, .read, (b.read c).1⟩ :: b.log }) := by
  simp only [Bus.read, h]

/-- Two addresses that reach the same are written alike, but for the address in the log. -/
theorem Bus.write_of_route_eq {a c : Addr} (h : route a = route c) (v : Byte) (b : Bus) :
    b.write a v = { b.write c v with log := ⟨a, .write, v⟩ :: b.log } := by
  simp only [Bus.write, h]

theorem Bus.byteAt_of_ram {a : Addr} (h : a.toNat < 0x2000) (b : Bus) :
    b.byteAt a = some (b.ram.read Config.ramInit (a.toNat % 0x800)) := by
  rw [Bus.byteAt, route_of_ram h]

theorem PrgSize.bytes_eq (p : PrgSize) : p.bytes = if p = .k16 then 16384 else 32768 := by
  cases p <;> rfl

/-- PRG ROM repeats every PRG_SIZE bytes (R67). -/
theorem Bus.byteAt_of_prg {a : Addr} (h : 0x8000 ≤ a.toNat) (b : Bus) :
    b.byteAt a = some (b.mapper.prg.read zeroFill ((a.toNat - 0x8000) % (if b.mapper.prgSize = .k16 then 16384 else 32768))) := by
  rw [Bus.byteAt, route_of_cartridge (by omega), ← PrgSize.bytes_eq]
  exact if_neg (Nat.not_lt.2 h)

/-! ### Driven and undriven reads (R52, R62) -/

theorem Bus.drive_ppu_eq_none_iff (b : Bus) {k : Nat} (hk : k < 8) :
    (b.drive (.ppu (PpuReg.ofIndex k))).1 = none ↔ k ≠ 2 ∧ k ≠ 4 ∧ k ≠ 7 := by
  interval_cases k <;> simp [PpuReg.ofIndex, Bus.drive]

theorem Bus.drive_io_eq_none_iff (b : Bus) (n : Nat) :
    (b.drive (.io (IoReg.ofAddress n))).1 = none ↔ n ≠ 0x4015 ∧ n ≠ 0x4016 ∧ n ≠ 0x4017 := by
  unfold IoReg.ofAddress
  repeat' split
  all_goals simp_all [Bus.drive]

theorem Mapper.drive_eq_none_iff (m : Mapper) (a : Addr) : m.drive a = none ↔ a.toNat < 0x8000 := by
  unfold Mapper.drive
  split <;> simp_all

/-- The undriven addresses of the statements are those at which no target drives a byte. -/
theorem Bus.drive_eq_none_iff (b : Bus) (a : Addr) : (b.drive (route a)).1 = none ↔ undriven a := by
  unfold undriven ppuIndex
  by_cases hram : a.toNat < 0x2000
  · rw [route_of_ram hram]
    simp only [Bus.drive, reduceCtorEq, false_iff]
    omega
  by_cases hppu : a.toNat < 0x4000
  · rw [route_of_ppuIndex ⟨Nat.not_lt.1 hram, hppu, rfl⟩, b.drive_ppu_eq_none_iff (Nat.mod_lt _ (by decide))]
    omega
  by_cases hio : a.toNat < 0x4018
  · rw [route_of_io (Nat.not_lt.1 hppu) hio, b.drive_io_eq_none_iff]
    omega
  · rw [route_of_cartridge (Nat.not_lt.1 hio)]
    refine (b.mapper.drive_eq_none_iff a).trans ?_
    omega

/-- A target that drives nothing is not changed by the read. -/
theorem Bus.drive_snd_of_none {b : Bus} {t : Target} (h : (b.drive t).1 = none) : (b.drive t).2 = b := by
  rcases t with k | r | r | c
  · rfl
  · cases r
    case status | oamData | data => cases h
    all_goals rfl
  · cases r
    case status | pad1 | pad2 => cases h
    all_goals rfl
  · rfl

theorem Bus.read_of_undriven {a : Addr} (h : undriven a) (b : Bus) :
    b.read a = (b.openBus, { b with log := ⟨a, .read, b.openBus⟩ :: b.log }) := by
  have hnone := (b.drive_eq_none_iff a).2 h
  simp only [Bus.read, hnone, Bus.drive_snd_of_none hnone, Option.getD_none]

/-- PPUSTATUS is the one register whose byte has bits of open bus in it (60_exceptions R321). -/
theorem Bus.drive_fst_withOpenBus (b : Bus) (v : Byte) {t : Target} (h : t ≠ .ppu .status) :
    (Bus.drive { b with openBus := v } t).1 = (b.drive t).1 := by
  rcases t with k | r | r | c
  · rfl
  · cases r
    case status => exact absurd rfl h
    all_goals rfl
  · cases r <;> rfl
  · rfl

theorem PpuReg.ofIndex_eq_status : ∀ k < 8, PpuReg.ofIndex k = .status → k = 2 := by
  decide

theorem ppuIndex_of_route_status {a : Addr} (h : route a = .ppu .status) : ppuIndex a 2 := by
  unfold route at h
  split at h
  · cases h
  split at h
  · rename_i hlo hhi
    exact ⟨Nat.not_lt.1 hlo, hhi, PpuReg.ofIndex_eq_status _ (Nat.mod_lt _ (by decide)) (Target.ppu.inj h)⟩
  split at h <;> cases h

/-- A byte that a target drives does not depend on open bus, but for PPUSTATUS. -/
theorem Bus.read_fst_withOpenBus (b : Bus) {a : Addr} (v : Byte) (hd : ¬ undriven a) (hs : ¬ ppuIndex a 2) :
    (Bus.read a { b with openBus := v }).1 = (b.read a).1 := by
  have hdrive := b.drive_fst_withOpenBus v fun h => hs (ppuIndex_of_route_status h)
  obtain ⟨w, hw⟩ := Option.ne_none_iff_exists'.1 fun h => hd ((b.drive_eq_none_iff a).1 h)
  simp only [Bus.read, hdrive, hw, Option.getD_some]

/-- Settles O42: an address is undriven just when its target drives no byte (`Bus.drive_eq_none_iff`), and a driven byte has no bit of open bus
in it. -/
theorem openBusIsTheLastDrivenByte : Obligations.OpenBusIsTheLastDrivenByte := by
  unfold Obligations.OpenBusIsTheLastDrivenByte
  intro b a v
  exact ⟨rfl, rfl, fun h => Bus.read_of_undriven h b, Bus.read_fst_withOpenBus b v⟩

/-! ### Mirrors -/

/-- Settles O43: RAM and PRG ROM are storage (`Bus.read_storage`), and a PPU register's mirrors have one route. -/
theorem addressesReachTheirTargets : Obligations.AddressesReachTheirTargets := by
  unfold Obligations.AddressesReachTheirTargets
  intro b a v
  refine ⟨fun h => Bus.read_storage (Bus.byteAt_of_ram h b), fun hlo hhi => ?_, fun h => Bus.read_storage (Bus.byteAt_of_prg h b)⟩
  have hroute := route_ppuMirror hlo hhi
  have hread := Bus.read_of_route_eq hroute b
  exact ⟨by rw [hread], by rw [hread], Bus.write_of_route_eq hroute v b⟩

/-! ### Writes -/

/-- Settles O44: mapper 0 and PPUSTATUS take no byte, and every meaning answers (`exec_follows`). -/
theorem writesToReadOnlyTargetsAreIgnored : Obligations.WritesToReadOnlyTargetsAreIgnored := by
  unfold Obligations.WritesToReadOnlyTargetsAreIgnored
  constructor
  · rintro b a v (hcartridge | hstatus)
    · exact Bus.write_of_route (route_of_cartridge hcartridge) v b
    · exact Bus.write_of_route (route_of_ppuIndex hstatus) v b
  · intro i s
    obtain ⟨t, ht, -⟩ := exec_follows i s
    exact ⟨t, ht⟩

/-- Settles O45: a write reaches one RAM byte at most, and the canonical form lists it once. -/
theorem ramReadsBackWhatWasWritten : Obligations.RamReadsBackWhatWasWritten := by
  unfold Obligations.RamReadsBackWhatWasWritten
  intro b a c v hwf
  exact ⟨Bus.byteAt_write_same v hwf.rising, Bus.byteAt_write_other v b⟩

/-- A store after a write, at every index. -/
theorem Memory.read_write {u : Nat → Byte} {m : Memory} (a : Nat) (v : Byte) (hm : m.Rising) (k : Nat) :
    (m.write u a v).read u k = if k = a then v else m.read u k := by
  split
  · rename_i h
    rw [h, Memory.read_write_same a v hm]
  · rename_i h
    exact Memory.read_write_other u m v h

/-- Settles O41: the route of each register's addresses, and what `Bus.deliver` gives it. -/
theorem deviceWritesReachTheirRegisters : Obligations.DeviceWritesReachTheirRegisters := by
  unfold Obligations.DeviceWritesReachTheirRegisters
  intro b v
  refine ⟨fun a h => Bus.write_of_route (route_of_ppuIndex h) v b, fun a h => Bus.write_of_route (route_of_ppuIndex h) v b,
    fun a h => Bus.write_of_route (route_of_ppuIndex h) v b, fun a h hwf => ?oam, fun a hlo hhi hne hwf => ?channel, ?dmcFlags,
    Bus.write_of_route rfl v b, ?frameCounter, Bus.write_of_route rfl v b, ?strobe, fun a h => ?storage⟩
  case oam =>
    exact ⟨_, Bus.write_of_route (route_of_ppuIndex h) v b, Memory.read_write _ v hwf.rising⟩
  case channel =>
    have hroute : route a = .io (.channel a.toNat) := by
      rw [route_of_io hlo (by omega), IoReg.ofAddress_channel hhi fun h => hne (BitVec.eq_of_toNat_eq h)]
    exact ⟨_, Bus.write_of_route hroute v b, Memory.read_write _ v hwf.rising⟩
  case dmcFlags =>
    rw [← bit_eq]
    exact Bus.write_of_route rfl v b
  case frameCounter =>
    rw [← bit_eq]
    exact Bus.write_of_route rfl v b
  case strobe =>
    rw [← bit_eq]
    exact Bus.write_of_route rfl v b
  case storage =>
    exact ⟨(Bus.write_ram a v b).trans (if_neg (Nat.not_lt.2 h)), Bus.write_mapper a v b⟩

end Sys2Proof.Machine
end

section
/-! PROOFS. The decoder against the encoder, in both directions, and the length an opcode gives (30_encoding R80, R81, R84, R88 to R90): each read off
the opcode map, form by form. Then the whole policy table of R86 over the opcode byte, and how a step ends under it (R87). -/

namespace Sys2Proof

/-! ### A form against its operand bytes -/

/-- A form that makes an instruction of some operand bytes takes exactly these from the list. -/
theorem Form.build_of_makes {f : Form} {operands : List Byte} {i : Instr} (h : f.Makes operands i) (op : Byte) (rest : List Byte) :
    f.build op (operands ++ rest) = .ok (i, rest) := by
  cases f with
  | one j =>
    obtain ⟨rfl, rfl⟩ := h
    rfl
  | two make =>
    obtain ⟨b, rfl, rfl⟩ := h
    rfl
  | three make =>
    obtain ⟨lo, hi, rfl, rfl⟩ := h
    rfl
  | threeLate make =>
    obtain ⟨lo, hi, rfl, rfl⟩ := h
    rfl

/-- The bytes that a form built an instruction of are the instruction's encoding. -/
theorem Form.eq_encode_of_build {f : Form} {op : Byte} (he : f.Encodes op) {bytes rest : List Byte} {i : Instr}
    (h : f.build op bytes = .ok (i, rest)) : op :: bytes = encode i ++ rest := by
  revert h
  fun_cases Form.build op f bytes <;> intro h <;> cases h
  -- the four forms with enough bytes; the others end in an error
  · exact congrArg (· ++ _) he.symm
  · exact congrArg (· ++ _) (he _).symm
  · exact congrArg (· ++ _) (he _ _).symm
  · exact congrArg (· ++ _) (he _ _).symm

/-- How many bytes an instruction of this form has (R81). -/
def Form.length : Form → Nat
  | .one _ => 1
  | .two _ => 2
  | .three _ => 3
  | .threeLate _ => 3

/-- Two bytes after the opcode are enough for every form, which leaves those past its length. -/
theorem Form.build_two_bytes {f : Form} {op : Byte} (he : f.Encodes op) (b1 b2 : Byte) :
    ∃ i, f.build op [b1, b2] = .ok (i, [op, b1, b2].drop f.length) ∧ encode i = [op, b1, b2].take f.length := by
  cases f with
  | one i => exact ⟨i, rfl, he⟩
  | two make => exact ⟨make b1, rfl, he b1⟩
  | three make => exact ⟨make b1 b2, rfl, he b1 b2⟩
  | threeLate make => exact ⟨make b1 b2, rfl, he b1 b2⟩

/-- The lengths of the opcode map, by row and column (R84, R89). -/
theorem opcodeMap_length : ∀ op : Byte, (opcodeMap op).length = Machine.opcodeLength op := by
  decide

/-! ### The decoder -/

theorem decode_encode_append (i : Instr) (rest : List Byte) : decode (encode i ++ rest) = .ok (i, rest) := by
  obtain ⟨op, operands, he, hm⟩ := Laws.FormOfOpcode.of_instr i
  rw [he]
  exact Form.build_of_makes hm op rest

theorem eq_encode_append_of_decode {bytes rest : List Byte} {i : Instr} (h : decode bytes = .ok (i, rest)) :
    bytes = encode i ++ rest := by
  cases bytes with
  | nil => cases h
  | cons op operands => exact Form.eq_encode_of_build (opcodeMap_encodes op) h

/-- Settles O2: an instruction's opcode has the form that makes it, and a form encodes what it makes with its own opcode. -/
theorem decodeInvertsEncode : Obligations.DecodeInvertsEncode := by
  unfold Obligations.DecodeInvertsEncode
  intro bytes i rest
  constructor
  · exact eq_encode_append_of_decode
  · rintro rfl
    exact decode_encode_append i rest

/-- Settles O3: the form at the opcode, with the length that the map's row and column give it. -/
theorem opcodeAloneGivesTheLength : Obligations.OpcodeAloneGivesTheLength := by
  unfold Obligations.OpcodeAloneGivesTheLength
  intro op b1 b2
  rw [← opcodeMap_length]
  exact Form.build_two_bytes (opcodeMap_encodes op) b1 b2

/-- Settles O1: each word, written bit by bit, is the encoding of its instruction. -/
theorem sampleWordsDecodeAsTheSpecWritesThem : Obligations.SampleWordsDecodeAsTheSpecWritesThem := by
  unfold Obligations.SampleWordsDecodeAsTheSpecWritesThem
  have word (i : Instr) : decode (encode i ++ []) = .ok (i, []) := decode_encode_append i []
  exact ⟨word (.ldaImm 0x80), word (.staAbs 0x00 0x03), word .pla, word (.adcIzy 0x12), word .lsrAcc, word (.jsrAbs 0x34 0x12), word .sei,
    word (.tasAby 0x00 0x05)⟩

/-! ### The policy table over the opcode byte -/

/-- The opcodes that R86's table leaves out. -/
def IllegalPolicy.LeavesOut (policy : IllegalPolicy) (op : Byte) : Prop :=
  (policy = .documentedOnly ∧ op ∈ Machine.undocumentedOpcodes) ∨ (policy = .stable ∧ op ∈ Machine.unstableOpcodes)

/-- The opcodes marked `*` in the map are those of the instructions whose class is not documented (R84, R85). -/
theorem Instr.opcode_mem_undocumentedOpcodes_iff (i : Instr) :
    i.opcode ∈ Machine.undocumentedOpcodes ↔ i.stability ≠ .documented := by
  have h : decide (i.opcode ∈ Machine.undocumentedOpcodes) = decide (i.stability ≠ .documented) := by
    cases i <;> rfl
  exact decide_eq_decide.1 h

theorem IllegalPolicy.documentedOnly_admits_iff (c : Stability) : IllegalPolicy.documentedOnly.admits c = true ↔ c = .documented := by
  cases c <;> decide

theorem IllegalPolicy.full_admits (c : Stability) : IllegalPolicy.full.admits c = true := by
  cases c <;> rfl

/-- The table of R86, over the opcode byte. -/
theorem wellFormed_iff_not_leavesOut (policy : IllegalPolicy) (i : Instr) :
    WellFormed policy i = true ↔ ¬ policy.LeavesOut i.opcode := by
  cases policy with
  | documentedOnly =>
    simp [IllegalPolicy.LeavesOut, WellFormed, IllegalPolicy.documentedOnly_admits_iff, i.opcode_mem_undocumentedOpcodes_iff]
  | stable => simp [IllegalPolicy.LeavesOut, wellFormed_stable_iff]
  | full => simp [IllegalPolicy.LeavesOut, WellFormed, IllegalPolicy.full_admits]

namespace Machine

/-- The instruction that the next step fetches has the opcode byte that lies at PC. -/
theorem started_fetchInstr_opcode (s : State) : (started s).fetchInstr.1.opcode = (s.bus.read s.cpu.pc).1 :=
  (State.fetchInstr_opcode _).trans (started_read s s.cpu.pc)

/-- The policy's answer for the instruction that the next step fetches, over the byte at PC. -/
theorem started_wellFormed_iff (s : State) :
    WellFormed (started s).params.policy (started s).fetchInstr.1 = true ↔ ¬ s.params.policy.LeavesOut (s.bus.read s.cpu.pc).1 := by
  rw [wellFormed_iff_not_leavesOut, started_fetchInstr_opcode]
  rfl

/-- Settles O4: the CPU step is the instruction at PC, refused or run as the policy's table says of its opcode byte; every meaning answers. -/
theorem policyDecidesWhichOpcodesRun : Obligations.PolicyDecidesWhichOpcodesRun := by
  unfold Obligations.PolicyDecidesWhichOpcodesRun
  intro s hb hr hj hp
  have hc := cpuStep_of_noInterrupt hr hj hp
  constructor
  · intro left
    have hn := Bool.eq_false_iff.2 fun h => (started_wellFormed_iff s).1 h left
    rw [State.runInstruction_of_not_wellFormed hn, started_fetchInstr_opcode] at hc
    exact step_refused_of_cpuStep hb hc
  · intro runs
    obtain ⟨t, ht⟩ := State.runInstruction_of_wellFormed ((started_wellFormed_iff s).2 runs)
    exact step_next_of_cpuStep hb (hc.trans ht)

end Machine

end Sys2Proof
end

section
/-! PROOFS. Which bytes of storage an instruction changes, by access class (40_addressing R112; 42_stack R161; 45_control_transfer R210 to R222; 20_memory
R59), and the step that fetches an instruction from storage and runs it (40_addressing R100, R101). -/

namespace Sys2Proof.Machine

/-! ### What a read leaves of storage -/

@[simp] theorem State.byteAt_read (a c : Addr) (s : State) : (s.read a).2.bus.byteAt c = s.bus.byteAt c :=
  Bus.byteAt_read a c s.bus

@[simp] theorem State.byteAt_dummyRead (a c : Addr) (s : State) : (s.dummyRead a).bus.byteAt c = s.bus.byteAt c :=
  s.byteAt_read a c

@[simp] theorem State.byteAt_idle (s : State) (c : Addr) : s.idle.bus.byteAt c = s.bus.byteAt c :=
  s.byteAt_dummyRead _ c

theorem idled_byteAt (s : State) (c : Addr) : (idled s).byteAt c = s.bus.byteAt c :=
  s.byteAt_idle c

@[simp] theorem State.byteAt_pull (s : State) (c : Addr) : s.pull.2.bus.byteAt c = s.bus.byteAt c := by
  rw [pull_eq, pulled_byteAt]

@[simp] theorem State.byteAt_pullAddr (s : State) (c : Addr) : s.pullAddr.2.bus.byteAt c = s.bus.byteAt c :=
  (s.pull.2.byteAt_pull c).trans (s.byteAt_pull c)

@[simp] theorem State.byteAt_leaveInterrupt (s : State) (c : Addr) : s.leaveInterrupt.bus.byteAt c = s.bus.byteAt c := by
  simp [State.leaveInterrupt]

@[simp] theorem branch_byteAt (taken : Bool) (off : Byte) (s : State) (c : Addr) :
    (branch taken off s).bus.byteAt c = s.bus.byteAt c := by
  unfold branch
  split
  · dsimp only
    split <;> simp
  · rfl

/-! ### The bytes of storage that a meaning can change -/

/-- Every address at which the meaning changes the byte of storage is among `cells`, which the state before it gives. -/
def StoresWithin (cells : State → Addr → Prop) (op : State → Result) : Prop :=
  ∀ s t, op s = .next t → ∀ a, ¬ cells s a → t.bus.byteAt a = s.bus.byteAt a

/-- The meaning changes no byte of storage. -/
abbrev KeepsStorage (op : State → Result) : Prop :=
  StoresWithin (fun _ _ => False) op

theorem StoresWithin.of_eq {cells : State → Addr → Prop} {op : State → Result} {f : State → State} (he : ∀ s, op s = .next (f s))
    (hf : ∀ s a, ¬ cells s a → (f s).bus.byteAt a = s.bus.byteAt a) : StoresWithin cells op := by
  intro s t h
  cases (he s).symm.trans h
  exact hf s

/-! ### The tables of forms -/

/-- A mnemonic of the read class, at every form of its table. -/
theorem keepsStorage_of_load {forms : List ReadForm} {op : Operand → State → Result} {u : State → Byte → CpuState → CpuState}
    (he : ∀ o s, op o s = .next (afterLoad o s (u s)))
    (hforms : forms.map (fun f => exec f.instr) = forms.map fun f => op f.operand) :
    ∀ f ∈ forms, KeepsStorage (exec f.instr) := by
  intro f hf
  rw [List.map_inj_left.1 hforms f hf]
  exact .of_eq (he f.operand) fun s a _ => loaded_byteAt f.operand s.cpu s.bus a

/-- The address at which a write or read-modify-write form accesses memory reaches this one's byte. -/
def AtEffectiveAddress (m : AddrMode) (s : State) (a : Addr) : Prop :=
  sameRamByte (cell (formed m s.cpu s.bus).ea) a

/-- The address of R267, for the register value `r`, reaches this one's byte. -/
def AtHighTarget (m : AddrMode) (r : State → Byte) (s : State) (a : Addr) : Prop :=
  sameRamByte (highTarget m (r s) s.cpu s.bus) a

section WriteTables

variable {forms : List WriteForm} {op : AddrMode → State → Result}

/-- A mnemonic of the write class, at every form of its table. -/
theorem storesWithin_of_store {v : State → Byte} (he : ∀ m s, op m s = .next (afterStore m (v s) s))
    (hforms : forms.map (fun f => exec f.instr) = forms.map fun f => op f.mode) :
    ∀ f ∈ forms, StoresWithin (AtEffectiveAddress f.mode) (exec f.instr) := by
  intro f hf
  rw [List.map_inj_left.1 hforms f hf]
  exact .of_eq (he f.mode) fun s a ha => stored_byteAt f.mode (v s) s.cpu s.bus a ha

/-- A mnemonic of the read-modify-write class, at every form of its table. -/
theorem storesWithin_of_modify {g : State → Byte → Byte} {u : State → Byte → CpuState → CpuState}
    (he : ∀ m s, op m s = .next (afterModify m (g s) s (u s)))
    (hforms : forms.map (fun f => exec f.instr) = forms.map fun f => op f.mode) :
    ∀ f ∈ forms, StoresWithin (AtEffectiveAddress f.mode) (exec f.instr) := by
  intro f hf
  rw [List.map_inj_left.1 hforms f hf]
  exact .of_eq (he f.mode) fun s a ha => modified_byteAt f.mode (g s) s.cpu s.bus a ha

/-- A mnemonic of R267, at every form of its table. -/
theorem storesWithin_of_storeHigh {r : State → Byte} {u : State → CpuState}
    (he : ∀ m s, op m s = .next { s with cpu := u s, bus := storedHigh m (r s) s.cpu s.bus })
    (hforms : forms.map (fun f => exec f.instr) = forms.map fun f => op f.mode) :
    ∀ f ∈ forms, StoresWithin (AtHighTarget f.mode r) (exec f.instr) := by
  intro f hf
  rw [List.map_inj_left.1 hforms f hf]
  exact .of_eq (he f.mode) fun s a ha => storedHigh_byteAt f.mode (r s) s.cpu s.bus a ha

end WriteTables

theorem keepsStorage_of_readForms (b l h : Byte) : ∀ f ∈ readForms b l h, KeepsStorage (exec f.instr) := by
  unfold readForms
  simp only [List.forall_mem_append, and_assoc]
  exact ⟨keepsStorage_of_load ldaOp_eq rfl, keepsStorage_of_load ldxOp_eq rfl, keepsStorage_of_load ldyOp_eq rfl,
    keepsStorage_of_load adcOp_eq rfl, keepsStorage_of_load sbcOp_eq rfl, keepsStorage_of_load usbcOp_eq rfl,
    keepsStorage_of_load andOp_eq rfl, keepsStorage_of_load oraOp_eq rfl, keepsStorage_of_load eorOp_eq rfl,
    keepsStorage_of_load bitOp_eq rfl, keepsStorage_of_load cmpOp_eq rfl, keepsStorage_of_load cpxOp_eq rfl,
    keepsStorage_of_load cpyOp_eq rfl, keepsStorage_of_load laxOp_eq rfl, keepsStorage_of_load lasOp_eq rfl,
    keepsStorage_of_load ancOp_eq rfl, keepsStorage_of_load alrOp_eq rfl, keepsStorage_of_load arrOp_eq rfl,
    keepsStorage_of_load sbxOp_eq rfl, keepsStorage_of_load aneOp_eq rfl, keepsStorage_of_load lxaOp_eq rfl,
    keepsStorage_of_load nopOp_eq rfl⟩

theorem storesWithin_of_storeForms (b l h : Byte) :
    ∀ f ∈ storeForms b l h, StoresWithin (AtEffectiveAddress f.mode) (exec f.instr) := by
  unfold storeForms
  simp only [List.forall_mem_append, and_assoc]
  exact ⟨storesWithin_of_store staOp_eq rfl, storesWithin_of_store stxOp_eq rfl, storesWithin_of_store styOp_eq rfl,
    storesWithin_of_store saxOp_eq rfl⟩

theorem storesWithin_of_modifyForms (b l h : Byte) :
    ∀ f ∈ modifyForms b l h, StoresWithin (AtEffectiveAddress f.mode) (exec f.instr) := by
  unfold modifyForms
  simp only [List.forall_mem_append, and_assoc]
  exact ⟨storesWithin_of_modify incOp_eq rfl, storesWithin_of_modify decOp_eq rfl, storesWithin_of_modify aslOp_eq rfl,
    storesWithin_of_modify lsrOp_eq rfl, storesWithin_of_modify rolOp_eq rfl, storesWithin_of_modify rorOp_eq rfl,
    storesWithin_of_modify sloOp_eq rfl, storesWithin_of_modify rlaOp_eq rfl, storesWithin_of_modify sreOp_eq rfl,
    storesWithin_of_modify rraOp_eq rfl, storesWithin_of_modify iscOp_eq rfl, storesWithin_of_modify dcpOp_eq rfl⟩

/-! ### The instructions with no memory operand -/

/-- The Bus in the state that a meaning answers. -/
def busAfter : Result → Option Bus
  | .next t => some t.bus
  | .fault _ => none
  | .refused _ => none

/-- Instructions whose meanings leave one and the same Bus, with storage as it was. -/
theorem keepsStorage_of_busAfter {instrs : List Instr} {f : State → Bus} (hf : ∀ s a, (f s).byteAt a = s.bus.byteAt a)
    (hbus : ∀ s, instrs.map (fun i => busAfter (exec i s)) = instrs.map fun _ => some (f s)) :
    ∀ i ∈ instrs, KeepsStorage (exec i) := by
  intro i hi s t ht a _
  have h := List.map_inj_left.1 (hbus s) i hi
  rw [ht] at h
  rw [Option.some.inj h, hf]

/-- The documented instructions of implied and accumulator mode that reach no stack slot (40_addressing R102). -/
def idleInstrs : List Instr :=
  [.tax, .tay, .txa, .tya, .tsx, .txs, .inx, .iny, .dex, .dey, .aslAcc, .lsrAcc, .rolAcc, .rorAcc, .clc, .sec, .cli, .sei, .cld, .sed,
   .clv, .nop]

/-- The instructions with no memory operand, by what they do to the Bus. -/
theorem registerInstrs_eq (b l h : Byte) (p : Flags) :
    registerInstrs b l h =
      idleInstrs ++ (branchForms b p).map (·.1) ++ [.jmpAbs l h, .jmpInd l h] ++ impliedNopForms.map (·.1) ++ jamForms.map (·.1) := rfl

/-- Each branch is the common rule with its condition (45 R214 to R222). -/
theorem exec_of_branchForms {off : Byte} {s : State} : ∀ f ∈ branchForms off s.cpu.p, exec f.1 s = .next (branch f.2.2 off s) :=
  List.map_inj_left.1 rfl

theorem keepsStorage_of_branchForms {off : Byte} {p : Flags} : ∀ i ∈ (branchForms off p).map (·.1), KeepsStorage (exec i) := by
  intro i hi s t ht a _
  -- the instructions of the table are the same for every value of the flags
  obtain ⟨f, hf, rfl⟩ := List.mem_map.1 (show i ∈ (branchForms off s.cpu.p).map (·.1) from hi)
  cases (exec_of_branchForms f hf).symm.trans ht
  exact branch_byteAt f.2.2 off s a

/-- JMP: the target is given, or read through a pointer (45 R210, R211). -/
theorem keepsStorage_of_jmp {l h : Byte} : ∀ i ∈ [Instr.jmpAbs l h, .jmpInd l h], KeepsStorage (exec i) := by
  simp only [List.forall_mem_cons, List.not_mem_nil, false_imp_iff, implies_true, and_true]
  exact ⟨.of_eq (fun _ => rfl) (by simp), .of_eq (fun _ => rfl) (by simp)⟩

theorem keepsStorage_of_registerInstrs (b l h : Byte) : ∀ i ∈ registerInstrs b l h, KeepsStorage (exec i) := by
  rw [registerInstrs_eq b l h State.reset.cpu.p]
  simp only [List.forall_mem_append, and_assoc]
  exact ⟨keepsStorage_of_busAfter idled_byteAt fun _ => rfl, keepsStorage_of_branchForms, keepsStorage_of_jmp,
    keepsStorage_of_busAfter idled_byteAt fun _ => rfl, keepsStorage_of_busAfter (f := State.bus) (fun _ _ => rfl) fun _ => rfl⟩

/-- The pulls and the returns (42_stack R161; 45 R213, R224). -/
theorem keepsStorage_of_pulls : ∀ i ∈ [Instr.pla, .plp, .rts, .rti], KeepsStorage (exec i) := by
  simp only [List.forall_mem_cons, List.not_mem_nil, false_imp_iff, implies_true, and_true]
  exact ⟨.of_eq (fun _ => rfl) (by simp), .of_eq (fun _ => rfl) (by simp), .of_eq (fun _ => rfl) (by simp),
    .of_eq (fun _ => rfl) (by simp)⟩

/-! ### The statements -/

/-- Settles O46: the read class and the instructions with no memory operand make reads only, and so do the pulls and returns. -/
theorem instructionsThatStoreNothingKeepMemory : Obligations.InstructionsThatStoreNothingKeepMemory := by
  unfold Obligations.InstructionsThatStoreNothingKeepMemory
  intro b l h s t i hi ht a
  have hkeeps : KeepsStorage (exec i) := by
    simp only [List.mem_append, List.mem_map] at hi
    obtain (⟨f, hf, rfl⟩ | hi) | hi := hi
    · exact keepsStorage_of_readForms b l h f hf
    · exact keepsStorage_of_registerInstrs b l h i hi
    · exact keepsStorage_of_pulls i hi
  exact hkeeps s t ht a not_false

/-- Settles O47: the write class, the read-modify-write class and the stores of R267 each write at one address, formed from the state before. -/
theorem storesChangeTheAddressedByteOnly : Obligations.StoresChangeTheAddressedByteOnly := by
  unfold Obligations.StoresChangeTheAddressedByteOnly
  intro b l h s t
  refine ⟨fun f hf => ?_, fun f hf => ?_, fun f hf => ?_, fun f hf => ?_⟩
  · obtain hf | hf := List.mem_append.1 hf
    · exact storesWithin_of_storeForms b l h f hf s t
    · exact storesWithin_of_modifyForms b l h f hf s t
  · obtain hf | hf := List.mem_append.1 hf
    · exact storesWithin_of_storeHigh shaOp_eq rfl f hf s t
    · exact storesWithin_of_storeHigh tasOp_eq rfl f hf s t
  · exact storesWithin_of_storeHigh shxOp_eq rfl f hf s t
  · exact storesWithin_of_storeHigh shyOp_eq rfl f hf s t

/-- Settles O29: the fetch of a code in storage gives its instruction and the state `ready` (`cpuStep_of_runs`), and the PPU position is in bounds. -/
theorem stepRunsTheDecodedInstruction : Obligations.StepRunsTheDecodedInstruction := by
  unfold Obligations.StepRunsTheDecodedInstruction
  intro i s t hb hr he
  exact step_next_iff.2 ⟨hb, _, cpuStep_of_runs hr he, rfl⟩

end Sys2Proof.Machine
end

section
/-! PROOFS. Loads, stores and register transfers (41_load_store_transfer R140 to R151): a table of read-class or write-class forms against the
encoder, the accesses of its modes (40_addressing R104 to R109, R112, R113) and the operation of its mnemonic. -/

namespace Sys2Proof.Machine

/-! ### The accesses of an operand -/

/-- How many accesses an operand makes when its index crosses no page (40_addressing R103 to R109, R112). -/
def Operand.accesses : Operand → Nat
  | .imm _ => 0
  | .mem m => m.formCycles + 1

/-- The operands that the opcode map marks `+p`: those whose index can cross a page (40_addressing R107, R109). -/
def Operand.canCross : Operand → Bool
  | .imm _ => false
  | .mem m => m.spends

theorem loaded_log_crosses (o : Operand) (c : CpuState) (b : Bus) :
    (loaded o c b).2.log.length = b.log.length + o.accesses + (crosses o c b).toNat := by
  cases o with
  | imm _ => rfl
  | mem m =>
    rw [loaded_log, crosses, Operand.accesses]
    omega

theorem crosses_canCross (o : Operand) (c : CpuState) (b : Bus) (h : crosses o c b = true) : o.canCross = true := by
  cases o with
  | imm _ => exact absurd h Bool.false_ne_true
  | mem m => exact crossed_spends m c b h

/-- The mark `+p` takes nothing from the crossings that an operand can make. -/
theorem canCross_and_crosses (o : Operand) (c : CpuState) (b : Bus) : (o.canCross && crosses o c b) = crosses o c b := by
  cases h : crosses o c b with
  | false => exact Bool.and_false _
  | true => rw [crosses_canCross o c b h, Bool.and_true]

/-! ### The read class -/

/-- A form's bytes, cycles and `+p` mark as its table lists them. -/
def ReadForm.listed (f : ReadForm) : List Byte × Nat × Bool :=
  (f.code, f.cycles, f.plus)

/-- A form's bytes, cycles and `+p` mark as the encoder and its operand give them. -/
def ReadForm.derived (f : ReadForm) : List Byte × Nat × Bool :=
  (encode f.instr, f.code.length + f.operand.accesses, f.operand.canCross)

theorem ReadForm.costs_of_listed {f : ReadForm} (h : f.listed = f.derived) (s : State) : f.costs s := by
  simp only [ReadForm.listed, ReadForm.derived, Prod.mk.injEq] at h
  obtain ⟨hcode, hcycles, hplus⟩ := h
  refine ⟨hcode.symm, ?_⟩
  rw [loaded_log_crosses, hplus, canCross_and_crosses, hcycles]
  omega

/-- A mnemonic of the read class, at every form of its table: the cost, and the state it answers. -/
theorem costs_and_exec_of_load {forms : List ReadForm} {op : Operand → State → Result} {u : State → Byte → CpuState → CpuState}
    (he : ∀ o s, op o s = .next (afterLoad o s (u s))) (hlisted : forms.map ReadForm.listed = forms.map ReadForm.derived)
    (hexec : forms.map (fun f => exec f.instr) = forms.map fun f => op f.operand) (s : State) :
    ∀ f ∈ forms, f.costs s ∧ exec f.instr s = .next (afterLoad f.operand s (u s)) := by
  intro f hf
  have hop : exec f.instr = op f.operand := List.map_inj_left.1 hexec f hf
  exact ⟨ReadForm.costs_of_listed (List.map_inj_left.1 hlisted f hf) s, hop ▸ he f.operand s⟩

/-! ### The write class -/

/-- A form's bytes and cycles as its table lists them. -/
def WriteForm.listed (f : WriteForm) : List Byte × Nat :=
  (f.code, f.cycles)

/-- A form's bytes and cycles as the encoder and its mode give them, for a class that makes `n` accesses at `EA`. -/
def WriteForm.derived (n : Nat) (f : WriteForm) : List Byte × Nat :=
  (encode f.instr, f.code.length + f.mode.formCycles + f.mode.spends.toNat + n)

/-- The cost of a form after whose meaning the log has its mode's accesses and `n` at `EA`. -/
theorem WriteForm.costs_of_listed {f : WriteForm} {n : Nat} (h : f.listed = f.derived n) {s : State} {after : Bus}
    (hlog : after.log.length = s.bus.log.length + f.mode.formCycles + f.mode.spends.toNat + n) :
    costs f.instr f.code f.cycles s after := by
  simp only [WriteForm.listed, WriteForm.derived, Prod.mk.injEq] at h
  obtain ⟨hcode, hcycles⟩ := h
  refine ⟨hcode.symm, ?_⟩
  rw [hlog, hcycles]
  omega

/-- A mnemonic of the write class, at every form of its table: the cost, and the state it answers. -/
theorem costs_and_exec_of_store {forms : List WriteForm} {op : AddrMode → State → Result} {v : State → Byte}
    (he : ∀ m s, op m s = .next (afterStore m (v s) s)) (hlisted : forms.map WriteForm.listed = forms.map (WriteForm.derived 1))
    (hexec : forms.map (fun f => exec f.instr) = forms.map fun f => op f.mode) (s : State) :
    ∀ f ∈ forms, costs f.instr f.code f.cycles s (afterStore f.mode (v s) s).bus ∧
      exec f.instr s = .next (afterStore f.mode (v s) s) := by
  intro f hf
  have hop : exec f.instr = op f.mode := List.map_inj_left.1 hexec f hf
  exact ⟨WriteForm.costs_of_listed (List.map_inj_left.1 hlisted f hf) (stored_log f.mode (v s) s.cpu s.bus), hop ▸ he f.mode s⟩

/-! ### Implied mode -/

/-- A one-byte instruction whose only access is the dummy read at PC takes two cycles (40_addressing R102). -/
theorem costs_idled {i : Instr} {op : Byte} (h : encode i = [op]) (s : State) : costs i [op] 2 s (idled s) :=
  ⟨h, rfl⟩

/-- The state after a transfer that sets N and Z by the byte copied: `get` reads its source and `put` writes its target. -/
theorem idle_transfer_eq (get : CpuState → Byte) (put : Byte → CpuState → CpuState) (s : State) :
    s.idle.withCpu { put (get s.idle.cpu) s.idle.cpu with p := s.idle.cpu.p.setNZ (get s.idle.cpu) } =
      afterIdle s fun c => { put (get c) c with p := nz (get c) c.p } := by
  rw [setNZ_eq]
  rfl

/-! ### The statements -/

/-- Settles O5: LDA, LDX and LDY are the read class with their register as the target (R140 to R142), over the tables of their forms. -/
theorem loadsSetTheirRegister : Obligations.LoadsSetTheirRegister := by
  unfold Obligations.LoadsSetTheirRegister
  intro b l h s
  exact ⟨costs_and_exec_of_load ldaOp_eq rfl rfl s, costs_and_exec_of_load ldxOp_eq rfl rfl s, costs_and_exec_of_load ldyOp_eq rfl rfl s⟩

/-- Settles O6: STA, STX and STY are the write class with their register as the source (R143 to R145), over the tables of their forms. -/
theorem storesWriteTheirRegister : Obligations.StoresWriteTheirRegister := by
  unfold Obligations.StoresWriteTheirRegister
  intro b l h s
  exact ⟨costs_and_exec_of_store staOp_eq rfl rfl s, costs_and_exec_of_store stxOp_eq rfl rfl s, costs_and_exec_of_store styOp_eq rfl rfl s⟩

/-- Settles O7: five transfers are one rule, by their source and target (R146 to R150); TXS writes no flag, so its state is the model's own (R151). -/
theorem transfersCopyARegister : Obligations.TransfersCopyARegister := by
  unfold Obligations.TransfersCopyARegister
  intro s
  refine ⟨⟨costs_idled rfl s, ?tax⟩, ⟨costs_idled rfl s, ?tay⟩, ⟨costs_idled rfl s, ?txa⟩, ⟨costs_idled rfl s, ?tya⟩,
    ⟨costs_idled rfl s, ?tsx⟩, ⟨costs_idled rfl s, ?txs⟩⟩
  case tax => exact congrArg _ (idle_transfer_eq (·.a) (fun v c => { c with x := v }) s)
  case tay => exact congrArg _ (idle_transfer_eq (·.a) (fun v c => { c with y := v }) s)
  case txa => exact congrArg _ (idle_transfer_eq (·.x) (fun v c => { c with a := v }) s)
  case tya => exact congrArg _ (idle_transfer_eq (·.y) (fun v c => { c with a := v }) s)
  case tsx => exact congrArg _ (idle_transfer_eq (·.s) (fun v c => { c with x := v }) s)
  case txs => rfl

end Sys2Proof.Machine
end

section
/-! PROOFS. The stack (42_stack R160 to R165): what PHA, PHP, PLA and PLP push and pull, and the bytes of storage that a run of pushes changes, in PHA,
PHP, JSR, BRK and the interrupt sequences (45_control_transfer R212, R223; 60_exceptions R309, R310). -/

namespace Sys2Proof.Machine

/-! ### The stack instructions -/

/-- PHA pushes A after the dummy read at PC (R162). -/
theorem execPha_eq (s : State) : execPha s = .next (pushed s.cpu.a { s with bus := idled s }) :=
  congrArg Host.Outcome.next (push_eq _ s.idle)

/-- PHP pushes the status image after the dummy read at PC (R163). -/
theorem execPhp_eq (s : State) : execPhp s = .next (pushed (statusImage true s.cpu.p) { s with bus := idled s }) := by
  rw [execPhp, push_eq, pbyte_eq]
  rfl

/-- What PLA and PLP pull: the byte after dummy reads at PC and at the old slot, and the state that the pull leaves (R164, R165). -/
def pulledAfterDummyReads (s : State) : Byte × State :=
  pulled { s with bus := ((idled s).read (stackCell s.cpu.s)).2 }

theorem pull_dummyRead_idle_eq (s : State) : (s.idle.dummyRead s.idle.cpu.stackAddr).pull = pulledAfterDummyReads s := by
  rw [pull_eq, stackAddr_eq]
  rfl

theorem execPla_eq (s : State) :
    execPla s =
      let r := pulledAfterDummyReads s
      .next { r.2 with cpu := { r.2.cpu with a := r.1, p := nz r.1 s.cpu.p } } := by
  simp only [execPla, pull_dummyRead_idle_eq, setNZ_eq]
  rfl

theorem execPlp_eq (s : State) :
    execPlp s =
      let r := pulledAfterDummyReads s
      .next { r.2 with cpu := { r.2.cpu with p := statusLoaded r.1, iPoll := s.cpu.p.i } } := by
  simp only [execPlp, pull_dummyRead_idle_eq, pload_eq]
  rfl

/-- Settles O8: the state that each meaning leaves is the push or pull of its rule, and each access is one entry of the log. -/
theorem stackInstructionsPushAndPull : Obligations.StackInstructionsPushAndPull := by
  unfold Obligations.StackInstructionsPushAndPull
  intro s
  exact ⟨⟨rfl, rfl⟩, execPha_eq s, ⟨rfl, rfl⟩, execPhp_eq s, ⟨rfl, rfl⟩, execPla_eq s, ⟨rfl, rfl⟩, execPlp_eq s⟩

/-! ### The bytes that a run of pushes changes -/

/-- Loading PC from a vector is two reads (20_memory R64). -/
@[simp] theorem State.byteAt_loadVector (vector : Addr) (s : State) (c : Addr) :
    (s.loadVector vector).bus.byteAt c = s.bus.byteAt c := by
  simp [State.loadVector]

/-- `a` reaches none of the stack slots of S, S - 1 and so on to S - `n`, which wrap inside page $01 (R160). -/
def OffSlots (n : Nat) (s : State) (a : Addr) : Prop :=
  ∀ k ≤ n, ¬ sameRamByte (stackCell (s.cpu.s - u8 k)) a

section Pushes

variable {n : Nat} {s : State} {a : Addr}

/-- The first push writes the slot of S itself. -/
theorem OffSlots.first (h : OffSlots n s a) : ¬ sameRamByte (stackCell s.cpu.s) a := by
  have h0 := h 0 n.zero_le
  rwa [show s.cpu.s - u8 0 = s.cpu.s from BitVec.sub_zero _] at h0

/-- The slots of the later pushes are those from the decreased S on. -/
theorem OffSlots.push (h : OffSlots (n + 1) s a) (v : Byte) : OffSlots n (s.push v) a := by
  intro k hk
  have hslot : s.cpu.s - u8 (k + 1) = (s.push v).cpu.s - u8 k := by
    rw [u8, BitVec.ofNat_add, sub_add_eq_sub_sub_swap]
    rfl
  exact hslot ▸ h (k + 1) (Nat.succ_le_succ hk)

theorem State.byteAt_push (v : Byte) (h : OffSlots n s a) : (s.push v).bus.byteAt a = s.bus.byteAt a := by
  rw [push_eq, pushed_byteAt v s a h.first]

theorem State.byteAt_pushAddr (p : Addr) (h : OffSlots (n + 1) s a) : (s.pushAddr p).bus.byteAt a = s.bus.byteAt a :=
  (State.byteAt_push (lo p) (h.push (hi p))).trans (State.byteAt_push (hi p) h)

/-- An interrupt entry changes the three slots of its frame (60_exceptions R309, R310). -/
theorem State.byteAt_enterInterrupt (b : Bool) (vector : Addr) (h : OffSlots 2 s a) :
    (s.enterInterrupt b vector).bus.byteAt a = s.bus.byteAt a := by
  have hstatus : OffSlots 0 (s.pushAddr s.cpu.pc) a := (h.push (hi s.cpu.pc)).push (lo s.cpu.pc)
  have hframe := (State.byteAt_push (s.cpu.p.pbyte b) hstatus).trans (State.byteAt_pushAddr s.cpu.pc h)
  simpa [State.enterInterrupt] using hframe

/-- Both sequences make reads, and then the entry (60_exceptions R309). -/
theorem State.byteAt_interruptSequence (k : Interrupt) (h : OffSlots 2 s a) :
    (s.interruptSequence k).bus.byteAt a = s.bus.byteAt a := by
  have hidle : s.idle.idle.bus.byteAt a = s.bus.byteAt a := by simp
  cases k with
  | nmi => exact (State.byteAt_enterInterrupt (s := s.idle.idle.withCpu _) false nmiVector h).trans hidle
  | irq => exact (State.byteAt_enterInterrupt (s := s.idle.idle) false irqVector h).trans hidle

end Pushes

/-! ### The step that takes an interrupt -/

/-- No reset or jam comes first: the CPU step is the sequence of the interrupt that the poll returns (60_exceptions R329). -/
theorem cpuStep_of_interrupt {s : State} {k : Interrupt} (hr : s.cpu.resetPending = false) (hj : s.cpu.jammed = false)
    (hp : s.poll = some k) : cpuStep s = .next ((started s).interruptSequence k).countCycles.runDma := by
  have hb : s.beginStep.poll = some k := hp
  unfold cpuStep
  dsimp only
  rw [if_neg (by simp [hr]), if_neg (by simp [hj]), hb]
  rfl

/-- OAM DMA writes at OAMDATA only, which is no byte of storage (60_exceptions R328). -/
theorem Bus.byteAt_dmaCopy (page : Byte) (n : Nat) (b : Bus) (a : Addr) : (Bus.dmaCopy page n b).byteAt a = b.byteAt a := by
  induction n generalizing b with
  | zero => rfl
  | succ n ih =>
    have hoam : ¬ sameRamByte oamDataAddr a := fun h => absurd h.1 (by decide)
    rw [Bus.dmaCopy, ih, Bus.byteAt_write_other _ _ hoam, Bus.byteAt_read]

theorem State.byteAt_runDma (s : State) (a : Addr) : s.runDma.bus.byteAt a = s.bus.byteAt a := by
  have hrequest (b : Bus) : Bus.byteAt a { b with dmaRequest := none } = b.byteAt a := rfl
  unfold State.runDma
  split
  · rfl
  · dsimp only
    rw [hrequest, Bus.byteAt_dmaCopy]

/-! ### The statement -/

/-- The instructions that push one byte (R162, R163). -/
theorem byteAt_of_exec_push {i : Instr} {s t : State} {a : Addr} (hi : i ∈ [Instr.pha, Instr.php]) (ht : exec i s = .next t)
    (ha : ¬ sameRamByte (stackCell s.cpu.s) a) : t.bus.byteAt a = s.bus.byteAt a := by
  have hpush (v : Byte) : (pushed v { s with bus := idled s }).bus.byteAt a = s.bus.byteAt a :=
    (pushed_byteAt v { s with bus := idled s } a ha).trans (idled_byteAt s a)
  simp only [List.mem_cons, List.not_mem_nil, or_false] at hi
  obtain rfl | rfl := hi
  · cases (execPha_eq s).symm.trans ht
    exact hpush _
  · cases (execPhp_eq s).symm.trans ht
    exact hpush _

theorem byteAt_of_exec_jsr {l h : Byte} {s t : State} {a : Addr} (ht : exec (.jsrAbs l h) s = .next t) (ha : OffSlots 1 s a) :
    t.bus.byteAt a = s.bus.byteAt a := by
  cases ht
  have hpush := State.byteAt_pushAddr (s := s.dummyRead s.cpu.stackAddr) s.cpu.pc ha
  simpa using hpush

theorem byteAt_of_exec_brk {s t : State} {a : Addr} (ht : exec .brk s = .next t) (ha : OffSlots 2 s a) :
    t.bus.byteAt a = s.bus.byteAt a := by
  cases ht
  exact (State.byteAt_enterInterrupt (s := s.fetchByte.2) true 0xFFFE ha).trans (s.byteAt_read _ a)

theorem byteAt_of_cpuStep_interrupt {s t : State} {k : Interrupt} {a : Addr} (hr : s.cpu.resetPending = false)
    (hj : s.cpu.jammed = false) (hp : s.poll = some k) (ht : cpuStep s = .next t) (ha : OffSlots 2 s a) :
    t.bus.byteAt a = s.bus.byteAt a := by
  cases (cpuStep_of_interrupt hr hj hp).symm.trans ht
  exact (State.byteAt_runDma _ a).trans (State.byteAt_interruptSequence (s := started s) k ha)

/-- Settles O48: every push changes the slot of the S before it, and each S is one less than the last (`OffSlots.push`); the other accesses are reads. -/
theorem pushesChangeTheirStackBytesOnly : Obligations.PushesChangeTheirStackBytesOnly := by
  unfold Obligations.PushesChangeTheirStackBytesOnly
  refine ⟨fun s t i hi ht a => byteAt_of_exec_push hi ht, fun l h s t ht a => byteAt_of_exec_jsr ht, ?_⟩
  rintro s t (ht | ⟨hr, hj, ⟨k, hp⟩, ht⟩) a ha
  · exact byteAt_of_exec_brk ht ha
  · exact byteAt_of_cpuStep_interrupt hr hj hp ht ha

end Sys2Proof.Machine
end

section
/-! PROOFS. Arithmetic and logic (43_arithmetic_logic R170 to R186; 47_undocumented R263): the adder, and each mnemonic over the table of its forms. -/

namespace Sys2Proof.Machine

/-! ### The adder -/

/-- Bit 7 of a byte, as the mask `0x80` selects it. -/
theorem bit_seven_eq_mask (v : Byte) : bit v 7 = decide (v &&& 0x80 ≠ 0) := by
  have hmask : v &&& 0x80 = if bit v 7 then 0x80 else 0 := BitVec.and_twoPow v 7
  rw [hmask]
  cases bit v 7 <;> rfl

/-- V by the signed sum is V by the bit formula (R170). -/
theorem sumFlags_v (a m : Byte) (c : Bool) (p : Flags) :
    (sumFlags a m c p).v = decide ((a ^^^ sumByte a m c) &&& (m ^^^ sumByte a m c) &&& 0x80 ≠ 0) := by
  rw [← bit_seven_eq_mask, overflow_eq, sumFlags]

/-! ### The read-modify-write class -/

/-- A mnemonic of the read-modify-write class, at every form of its table: the cost, with three accesses at `EA`, and the state it answers. -/
theorem costs_and_exec_of_modify {forms : List WriteForm} {op : AddrMode → State → Result} {g : State → Byte → Byte}
    {u : State → Byte → CpuState → CpuState} (he : ∀ m s, op m s = .next (afterModify m (g s) s (u s)))
    (hlisted : forms.map WriteForm.listed = forms.map (WriteForm.derived 3))
    (hexec : forms.map (fun f => exec f.instr) = forms.map fun f => op f.mode) (s : State) :
    ∀ f ∈ forms, costs f.instr f.code f.cycles s (afterModify f.mode (g s) s (u s)).bus ∧
      exec f.instr s = .next (afterModify f.mode (g s) s (u s)) := by
  intro f hf
  have hop : exec f.instr = op f.mode := List.map_inj_left.1 hexec f hf
  exact ⟨WriteForm.costs_of_listed (List.map_inj_left.1 hlisted f hf) (modified_log f.mode (g s) s.cpu s.bus), hop ▸ he f.mode s⟩

/-! ### Implied mode -/

/-- INX (R183). -/
theorem execInx_eq (s : State) :
    execInx s = .next (afterIdle s fun c => { c with x := u8 (c.x.toNat + 1), p := nz (u8 (c.x.toNat + 1)) c.p }) := by
  simp only [execInx, succ_eq, setNZ_eq]
  rfl

/-- INY (R184). -/
theorem execIny_eq (s : State) :
    execIny s = .next (afterIdle s fun c => { c with y := u8 (c.y.toNat + 1), p := nz (u8 (c.y.toNat + 1)) c.p }) := by
  simp only [execIny, succ_eq, setNZ_eq]
  rfl

/-- DEX (R185). -/
theorem execDex_eq (s : State) :
    execDex s = .next (afterIdle s fun c => { c with x := u8 (c.x.toNat + 255), p := nz (u8 (c.x.toNat + 255)) c.p }) := by
  simp only [execDex, pred_eq, setNZ_eq]
  rfl

/-- DEY (R186). -/
theorem execDey_eq (s : State) :
    execDey s = .next (afterIdle s fun c => { c with y := u8 (c.y.toNat + 255), p := nz (u8 (c.y.toNat + 255)) c.p }) := by
  simp only [execDey, pred_eq, setNZ_eq]
  rfl

/-! ### The statements -/

/-- Settles O9: the adder is the exact sum with V by the signed range (`addC_eq`, R170), and ADC is the read class with it (R171). -/
theorem adcAddsWithCarry : Obligations.AdcAddsWithCarry := by
  unfold Obligations.AdcAddsWithCarry
  refine ⟨fun a m c p => ⟨addByte_eq a m c, addC_eq a m c p, sumFlags_v a m c p⟩, fun b l h s => ?_⟩
  exact costs_and_exec_of_load adcOp_eq rfl rfl s

/-- Settles O10: the sum with the complemented operand is the difference (`sum_complement`, `sumFlags_complement`), and USBC is SBC (R172, R263). -/
theorem sbcSubtractsWithBorrow : Obligations.SbcSubtractsWithBorrow := by
  unfold Obligations.SbcSubtractsWithBorrow
  intro b l h s
  exact ⟨costs_and_exec_of_load sbcOp_eq rfl rfl s, costs_and_exec_of_load usbcOp_eq rfl rfl s⟩

/-- Settles O11: AND, ORA and EOR are the read class with A as the target (R173 to R175), over the tables of their forms. -/
theorem logicCombinesIntoA : Obligations.LogicCombinesIntoA := by
  unfold Obligations.LogicCombinesIntoA
  intro b l h s
  exact ⟨costs_and_exec_of_load andOp_eq rfl rfl s, costs_and_exec_of_load oraOp_eq rfl rfl s, costs_and_exec_of_load eorOp_eq rfl rfl s⟩

/-- Settles O12: BIT and the three comparisons are the read class with the flags alone as the target (R176 to R180). -/
theorem testsSetFlagsOnly : Obligations.TestsSetFlagsOnly := by
  unfold Obligations.TestsSetFlagsOnly
  intro b l h s
  exact ⟨costs_and_exec_of_load bitOp_eq rfl rfl s, costs_and_exec_of_load cmpOp_eq rfl rfl s,
    costs_and_exec_of_load cpxOp_eq rfl rfl s, costs_and_exec_of_load cpyOp_eq rfl rfl s⟩

/-- Settles O13: INC and DEC are the read-modify-write class (R181, R182); the other four make the dummy read at PC alone (R183 to R186). -/
theorem incrementsAndDecrementsWrap : Obligations.IncrementsAndDecrementsWrap := by
  unfold Obligations.IncrementsAndDecrementsWrap
  intro b l h s
  exact ⟨costs_and_exec_of_modify incOp_eq rfl rfl s, costs_and_exec_of_modify decOp_eq rfl rfl s,
    ⟨costs_idled rfl s, execInx_eq s⟩, ⟨costs_idled rfl s, execIny_eq s⟩,
    ⟨costs_idled rfl s, execDex_eq s⟩, ⟨costs_idled rfl s, execDey_eq s⟩⟩

end Sys2Proof.Machine
end

section
/-! PROOFS. Shifts and rotates (44_shift_rotate R200 to R203): the memory forms are the read-modify-write class, and the accumulator forms are one rule. -/

namespace Sys2Proof.Machine

/-! ### The accumulator forms -/

/-- The state after an accumulator form: `f` gives the byte that replaces A, and `out` the bit of A that moves into C. -/
def afterShiftA (f : Byte → Byte) (out : Byte → Bool) (s : State) : State :=
  afterIdle s fun c => { c with a := f c.a, p := { nz (f c.a) c.p with c := out c.a } }

/-- The model's form of an accumulator shift: its flags are computed from the A that the dummy read at PC leaves. -/
theorem idle_shiftA_eq (f : Byte → Byte) (out : Byte → Bool) (s : State) :
    s.idle.withCpu { s.idle.cpu with a := f s.idle.cpu.a, p := s.idle.cpu.p.shifted (out s.idle.cpu.a) (f s.idle.cpu.a) } =
      afterShiftA f out s := by
  rw [shifted_eq]
  rfl

/-- ASL A (R200). -/
theorem execAslAcc_eq (s : State) : execAslAcc s = .next (afterShiftA (shiftedLeft false) topBit s) := by
  simp only [execAslAcc, aslByte_eq, topBit_eq, idle_shiftA_eq]

/-- LSR A (R201). -/
theorem execLsrAcc_eq (s : State) : execLsrAcc s = .next (afterShiftA (shiftedRight false) lowBit s) := by
  simp only [execLsrAcc, lsrByte_eq, lowBit_eq, idle_shiftA_eq]

/-- ROL A (R202): the dummy read leaves the old C to move in. -/
theorem execRolAcc_eq (s : State) : execRolAcc s = .next (afterShiftA (shiftedLeft s.cpu.p.c) topBit s) := by
  simp only [execRolAcc, rolByte_eq, topBit_eq, idle_shiftA_eq]
  rfl

/-- ROR A (R203): the dummy read leaves the old C to move in. -/
theorem execRorAcc_eq (s : State) : execRorAcc s = .next (afterShiftA (shiftedRight s.cpu.p.c) lowBit s) := by
  simp only [execRorAcc, rorByte_eq, lowBit_eq, idle_shiftA_eq]
  rfl

/-! ### The statement -/

/-- Settles O14: each mnemonic is the read-modify-write class over the table of its memory forms (R112); its accumulator form makes the dummy read
at PC alone (R102). -/
theorem shiftsMoveOneBit : Obligations.ShiftsMoveOneBit := by
  unfold Obligations.ShiftsMoveOneBit
  intro b l h s
  exact ⟨costs_and_exec_of_modify aslOp_eq rfl rfl s, costs_and_exec_of_modify lsrOp_eq rfl rfl s,
    costs_and_exec_of_modify rolOp_eq rfl rfl s, costs_and_exec_of_modify rorOp_eq rfl rfl s,
    ⟨costs_idled rfl s, execAslAcc_eq s⟩, ⟨costs_idled rfl s, execLsrAcc_eq s⟩,
    ⟨costs_idled rfl s, execRolAcc_eq s⟩, ⟨costs_idled rfl s, execRorAcc_eq s⟩⟩

end Sys2Proof.Machine
end

section
/-! PROOFS. Control transfer (45_control_transfer R210 to R224): jumps, subroutines, branches, BRK and RTI, and that each return undoes its entry
(60_exceptions R313), which is that a pull finds what was pushed last (42_stack R160, R161). -/

namespace Sys2Proof.Machine

/-! ### Jumps -/

/-- JMP absolute (R210). -/
theorem execJmpAbs_eq (l h : Byte) (s : State) : execJmpAbs l h s = .next { s with cpu := { s.cpu with pc := joined h l } } := by
  rw [execJmpAbs, mkAddr_eq]
  rfl

/-- JMP indirect (R211): the high byte of the target is read in the page of the low byte. -/
theorem execJmpInd_eq (l h : Byte) (s : State) :
    execJmpInd l h s =
      let low := s.bus.read (joined h l)
      let high := low.2.read (joined h (u8 (l.toNat + 1)))
      .next { s with cpu := { s.cpu with pc := joined high.1 low.1 }, bus := high.2 } := by
  simp only [execJmpInd, mkAddr_eq, succ_eq]
  rfl

/-- Settles O15: the target is the operand, or what two reads in the pointer's page return (R210, R211). -/
theorem jumpsSetThePc : Obligations.JumpsSetThePc := by
  unfold Obligations.JumpsSetThePc
  intro l h s
  exact ⟨⟨rfl, rfl⟩, execJmpAbs_eq l h s, ⟨rfl, rfl⟩, execJmpInd_eq l h s⟩

/-! ### Subroutines -/

theorem pushed_pc (v : Byte) (s : State) : (pushed v s).cpu.pc = s.cpu.pc := rfl

/-- JSR (R212): the two pushes come before the read of the target's high byte. -/
theorem execJsrAbs_eq (l : Byte) (s : State) :
    execJsrAbs l s =
      let saved := pushed (lowByte s.cpu.pc) (pushed (highByte s.cpu.pc) { s with bus := (s.bus.read (stackCell s.cpu.s)).2 })
      let high := saved.bus.read s.cpu.pc
      .next { saved with cpu := { saved.cpu with pc := joined high.1 l }, bus := high.2 } := by
  simp only [execJsrAbs, State.pushAddr, push_eq, hi_eq, lo_eq, stackAddr_eq, mkAddr_eq, State.dummyRead, State.read, State.withBus,
    State.setPc, State.withCpu, pushed_pc]

/-- RTS (R213): the address after the one pulled. -/
theorem execRts_eq (s : State) :
    execRts s =
      let low := pulledAfterDummyReads s
      let high := pulled low.2
      let target := joined high.1 low.1
      .next
        { high.2 with
          cpu := { high.2.cpu with pc := cell (target.toNat + 1) }
          bus := (high.2.bus.read target).2 } := by
  simp only [execRts, State.pullAddr, pull_dummyRead_idle_eq]
  simp only [pull_eq, mkAddr_eq, succ_addr_eq]
  rfl

/-- Settles O16: JSR reads its high byte after its pushes, and RTS goes to the address after the one it pulls (R212, R213). -/
theorem subroutinesUseTheStack : Obligations.SubroutinesUseTheStack := by
  unfold Obligations.SubroutinesUseTheStack
  exact ⟨fun l h s => ⟨rfl, rfl, rfl, execJsrAbs_eq l s⟩, fun s => ⟨⟨rfl, rfl⟩, execRts_eq s⟩⟩

/-! ### Branches -/

/-- The target in two's complement is PC plus the signed offset (R214). -/
theorem add_sext_eq (pc : Addr) (off : Byte) : pc + sext off = branchTarget pc off := by
  rw [branchTarget, BitVec.ofInt_add, BitVec.ofInt_natCast, BitVec.ofNat_toNat, BitVec.setWidth_eq]
  rfl

/-- Two addresses have the same high byte just when they lie in the same page. -/
theorem hi_eq_hi_iff (a c : Addr) : hi a = hi c ↔ a.toNat / 256 = c.toNat / 256 := by
  rw [← BitVec.toNat_inj, hi_toNat, hi_toNat]

/-- The common rule of the branches (R214). -/
theorem branch_eq (taken : Bool) (off : Byte) (s : State) :
    branch taken off s =
      { s with
        cpu := { s.cpu with pc := if taken then branchTarget s.cpu.pc off else s.cpu.pc }
        bus := branchBus taken off s } := by
  cases taken with
  | false => rfl
  | true =>
    simp only [branch, branchBus, branchCrosses, if_true, add_sext_eq, hi_eq_hi_iff, decide_eq_true_eq, ne_eq, ite_not]
    split
    · rfl
    · rw [mkAddr_eq, hi_eq, lo_eq]
      rfl

/-- A taken branch makes one access, and one more when it leaves the page (R214). -/
theorem branchBus_log (taken : Bool) (off : Byte) (s : State) :
    (branchBus taken off s).log.length = s.bus.log.length + taken.toNat + (taken && branchCrosses s.cpu.pc off).toNat := by
  cases taken with
  | false => rfl
  | true => cases h : branchCrosses s.cpu.pc off <;> simp [branchBus, h, idled]

theorem encode_of_branchForms (off : Byte) (p : Flags) : ∀ f ∈ branchForms off p, encode f.1 = [f.2.1, off] :=
  List.map_inj_left.1 rfl

/-- Settles O17: each branch is the common rule with its own flag as the condition (R214 to R222). -/
theorem branchesGoWhereTheOffsetSays : Obligations.BranchesGoWhereTheOffsetSays := by
  unfold Obligations.BranchesGoWhereTheOffsetSays
  intro off s f hf
  refine ⟨⟨encode_of_branchForms off s.cpu.p f hf, ?_⟩, ?_⟩
  · rw [branchBus_log, List.length_cons, List.length_singleton]
    omega
  · rw [exec_of_branchForms f hf, branch_eq]

/-! ### BRK and RTI -/

theorem savedFrame_log (a : Addr) (v : Byte) (s : State) : (savedFrame a v s).bus.log.length = s.bus.log.length + 3 := rfl

/-- BRK (R223): the interrupt entry from the address after the padding byte. -/
theorem execBrk_eq (s : State) :
    execBrk s =
      let saved := savedFrame (cell (s.cpu.pc.toNat + 1)) (statusImage true s.cpu.p) { s with bus := (s.bus.read s.cpu.pc).2 }
      let target := vectorRead 0xFFFE saved.bus
      .next
        { saved with
          cpu := { saved.cpu with pc := target.1, p := { s.cpu.p with i := true }, iPoll := true, pollSuppress := true }
          bus := target.2 } := by
  rw [execBrk, show (0xFFFE : Addr) = cell 0xFFFE from rfl, enterInterrupt_eq, ← succ_addr_eq]
  rfl

/-- RTI (R224): PC is the address pulled itself. -/
theorem execRti_eq (s : State) :
    execRti s =
      let image := pulledAfterDummyReads s
      let low := pulled image.2
      let high := pulled low.2
      .next
        { high.2 with
          cpu := { high.2.cpu with pc := joined high.1 low.1, p := statusLoaded image.1, iPoll := (statusLoaded image.1).i } } := by
  rw [execRti, leaveInterrupt_eq]
  rfl

/-- Settles O18: BRK is the shared interrupt entry (`enterInterrupt_eq`) after the fetch of its padding byte (R223). -/
theorem brkTakesTheSoftwareInterrupt : Obligations.BrkTakesTheSoftwareInterrupt := by
  unfold Obligations.BrkTakesTheSoftwareInterrupt
  intro s
  refine ⟨⟨rfl, ?_⟩, execBrk_eq s⟩
  rw [vectorRead_log_length, savedFrame_log]
  rfl

/-- Settles O19: RTI is the shared return (`leaveInterrupt_eq`) after the dummy read at PC (R224). -/
theorem rtiRestoresFlagsAndPc : Obligations.RtiRestoresFlagsAndPc := by
  unfold Obligations.RtiRestoresFlagsAndPc
  intro s
  exact ⟨⟨rfl, rfl⟩, execRti_eq s⟩

/-! ### What stands on the stack -/

/-- These bytes are what the next pulls return, in this order, and after them S is `r` (R161). -/
structure OnStack (bytes : List Byte) (r : Byte) (s : State) : Prop where
  slots : ∀ (k : Nat) (h : k < bytes.length), s.bus.byteAt (stackCell (u8 (s.cpu.s.toNat + (k + 1)))) = some bytes[k]
  depth : u8 (s.cpu.s.toNat + bytes.length) = r

/-- Counting in S wraps at 256 at every stage. -/
theorem u8_toNat_add (m n : Nat) : u8 ((u8 m).toNat + n) = u8 (m + n) := by
  apply eq_u8
  rw [u8_toNat, u8_toNat]
  omega

theorem u8_toNat_self (v : Byte) : u8 v.toNat = v :=
  (eq_u8 (Nat.mod_eq_of_lt v.isLt).symm).symm

theorem joined_highByte_lowByte (a : Addr) : joined (highByte a) (lowByte a) = a := by
  rw [← mkAddr_eq, ← hi_eq, ← lo_eq, mkAddr_hi_lo]

section Frames

variable {bytes : List Byte} {v r : Byte} {s t u : State}

theorem onStack_nil (s : State) : OnStack [] s.cpu.s s :=
  ⟨fun k hk => absurd hk k.not_lt_zero, u8_toNat_self s.cpu.s⟩

theorem OnStack.depth_of_nil (h : OnStack [] r s) : s.cpu.s = r :=
  (u8_toNat_self s.cpu.s).symm.trans h.depth

/-- A pull returns the first byte and leaves the others. -/
theorem OnStack.pull (h : OnStack (v :: bytes) r s) : (pulled s).1 = v ∧ OnStack bytes r (pulled s).2 := by
  refine ⟨pulled_fst (h.slots 0 (Nat.succ_pos _)), fun k hk => ?_, ?_⟩
  · have hslot := h.slots (k + 1) (Nat.succ_lt_succ hk)
    rw [pulled_byteAt]
    change s.bus.byteAt (stackCell (u8 ((u8 (s.cpu.s.toNat + 1)).toNat + (k + 1)))) = some bytes[k]
    rwa [u8_toNat_add, show s.cpu.s.toNat + 1 + (k + 1) = s.cpu.s.toNat + (k + 1 + 1) by omega]
  · change u8 ((u8 (s.cpu.s.toNat + 1)).toNat + bytes.length) = r
    rw [u8_toNat_add, ← h.depth, List.length_cons, Nat.add_assoc, Nat.add_comm 1]

/-- After a push, the slot `k + 1` above S is the one that was `k` above it. -/
theorem pushed_slot_above (v : Byte) (s : State) (k : Nat) : u8 ((pushed v s).cpu.s.toNat + (k + 1)) = u8 (s.cpu.s.toNat + k) := by
  change u8 ((u8 (s.cpu.s.toNat + 255)).toNat + (k + 1)) = _
  rw [u8_toNat_add]
  apply eq_u8
  rw [u8_toNat]
  omega

/-- A push puts its byte before the others: fewer than 256 bytes leave its slot free, wherever S is. -/
theorem OnStack.push (h : OnStack bytes r s) (hlen : bytes.length < 256) (hram : s.bus.ram.Rising) (v : Byte) :
    OnStack (v :: bytes) r (pushed v s) := by
  refine ⟨fun k hk => ?_, ?_⟩
  · rw [pushed_slot_above]
    cases k with
    | zero =>
      rw [Nat.add_zero, u8_toNat_self]
      exact pushed_slot v s hram
    | succ k =>
      have hk : k < bytes.length := Nat.lt_of_succ_lt_succ hk
      have hfree : s.cpu.s ≠ u8 (s.cpu.s.toNat + (k + 1)) := by
        rw [Ne, ← BitVec.toNat_inj, u8_toNat]
        omega
      rw [pushed_byteAt v s _ fun hsame => hfree (stackCell_same.1 hsame)]
      exact h.slots k hk
  · rw [List.length_cons, pushed_slot_above, h.depth]

/-- A later state with the same S and the same bytes in the slots above it. -/
theorem OnStack.of_sameFrame (h : OnStack bytes r t) (hsame : sameFrame bytes.length t u) : OnStack bytes r u := by
  obtain ⟨hs, hslots⟩ := hsame
  refine ⟨fun k hk => ?_, hs ▸ h.depth⟩
  rw [hs, hslots (k + 1) (Nat.succ_pos k) hk, h.slots k hk]

/-- Reads, and writes to no byte of storage, leave the stack as it is. -/
theorem OnStack.of_byteAt (h : OnStack bytes r t) (hs : u.cpu.s = t.cpu.s) (hb : ∀ a, u.bus.byteAt a = t.bus.byteAt a) : OnStack bytes r u :=
  h.of_sameFrame ⟨hs, fun _ _ _ => hb _⟩

end Frames

/-! ### The entries -/

/-- A read keeps the order of RAM's entries. -/
theorem Bus.rising_read (a : Addr) {b : Bus} (h : b.ram.Rising) : (b.read a).2.ram.Rising := by
  rwa [Bus.read_ram]

section Entries

variable {s t : State}

/-- PC high and PC low pushed. -/
theorem onStack_pushed_address (a : Addr) (hram : s.bus.ram.Rising) :
    OnStack [lowByte a, highByte a] s.cpu.s (pushed (lowByte a) (pushed (highByte a) s)) :=
  ((onStack_nil s).push (by simp) hram (highByte a)).push (by simp) (pushed_rising _ s hram) (lowByte a)

/-- The frame that every interrupt entry saves (60_exceptions R310). -/
theorem onStack_savedFrame (a : Addr) (image : Byte) (hram : s.bus.ram.Rising) :
    OnStack [image, lowByte a, highByte a] s.cpu.s (savedFrame a image s) :=
  (onStack_pushed_address a hram).push (by simp) (pushed_rising _ _ (pushed_rising _ s hram)) image

theorem onStack_enterInterrupt (b : Bool) (n : Nat) (hram : s.bus.ram.Rising) :
    OnStack [statusImage b s.cpu.p, lowByte s.cpu.pc, highByte s.cpu.pc] s.cpu.s (s.enterInterrupt b (cell n)) := by
  rw [enterInterrupt_eq]
  exact (onStack_savedFrame s.cpu.pc (statusImage b s.cpu.p) hram).of_byteAt rfl (vectorRead_byteAt n _)

theorem onStack_of_exec_jsr {l h : Byte} (hram : s.bus.ram.Rising) (ht : exec (.jsrAbs l h) s = .next t) :
    OnStack [lowByte s.cpu.pc, highByte s.cpu.pc] s.cpu.s t := by
  cases (execJsrAbs_eq l s).symm.trans ht
  have hpushes := onStack_pushed_address (s := { s with bus := (s.bus.read (stackCell s.cpu.s)).2 }) s.cpu.pc (Bus.rising_read _ hram)
  exact hpushes.of_byteAt rfl fun a => Bus.byteAt_read _ a _

theorem onStack_of_exec_brk (hram : s.bus.ram.Rising) (ht : exec .brk s = .next t) :
    OnStack [statusImage true s.cpu.p, lowByte (cell (s.cpu.pc.toNat + 1)), highByte (cell (s.cpu.pc.toNat + 1))] s.cpu.s t := by
  cases ht
  rw [← succ_addr_eq]
  exact onStack_enterInterrupt (s := s.fetchByte.2) true 0xFFFE (Bus.rising_read s.cpu.pc hram)

/-- Both sequences save the PC and the flags of before them (60_exceptions R309). -/
theorem onStack_interruptSequence (k : Interrupt) (hram : s.bus.ram.Rising) :
    OnStack [statusImage false s.cpu.p, lowByte s.cpu.pc, highByte s.cpu.pc] s.cpu.s (s.interruptSequence k) := by
  have hidle : s.idle.idle.bus.ram.Rising := Bus.rising_read _ (Bus.rising_read s.cpu.pc hram)
  cases k with
  | nmi => exact onStack_enterInterrupt (s := s.idle.idle.withCpu { s.idle.idle.cpu with nmiPending := false }) false 0xFFFA hidle
  | irq => exact onStack_enterInterrupt (s := s.idle.idle) false 0xFFFE hidle

theorem onStack_of_cpuStep_interrupt (hram : s.bus.ram.Rising) {k : Interrupt} (hr : s.cpu.resetPending = false)
    (hj : s.cpu.jammed = false) (hp : s.poll = some k) (ht : cpuStep s = .next t) :
    OnStack [statusImage false s.cpu.p, lowByte s.cpu.pc, highByte s.cpu.pc] s.cpu.s t := by
  cases (cpuStep_of_interrupt hr hj hp).symm.trans ht
  obtain ⟨-, -, -, -, n, hcpu, -⟩ := ((started s).interruptSequence k).countCycles.runDma_keeps
  have hs : ((started s).interruptSequence k).countCycles.runDma.cpu.s = ((started s).interruptSequence k).cpu.s :=
    (congrArg CpuState.s hcpu).trans rfl
  exact (onStack_interruptSequence (s := started s) k hram).of_byteAt hs (State.byteAt_runDma _)

end Entries

/-! ### The returns -/

section Returns

variable {r : Byte} {u : State}

theorem OnStack.afterDummyReads {v : Byte} {bytes : List Byte} (h : OnStack (v :: bytes) r u) :
    (pulledAfterDummyReads u).1 = v ∧ OnStack bytes r (pulledAfterDummyReads u).2 :=
  (h.of_byteAt (u := { u with bus := ((idled u).read (stackCell u.cpu.s)).2 }) rfl
    fun a => (Bus.byteAt_read _ a _).trans (idled_byteAt u a)).pull

/-- RTS with an address on the stack goes to the one after it (R213). -/
theorem exec_rts_of_onStack {a : Addr} (h : OnStack [lowByte a, highByte a] r u) :
    ∃ v, exec .rts u = .next v ∧ v.cpu.pc = cell (a.toNat + 1) ∧ v.cpu.s = r := by
  obtain ⟨hlow, h⟩ := h.afterDummyReads
  obtain ⟨hhigh, h⟩ := h.pull
  refine ⟨_, execRts_eq u, ?_, h.depth_of_nil⟩
  dsimp only
  rw [hlow, hhigh, joined_highByte_lowByte]

/-- RTI with an interrupt's frame on the stack restores what the frame holds (R224). -/
theorem exec_rti_of_onStack {b : Bool} {p : Flags} {a : Addr} (h : OnStack [statusImage b p, lowByte a, highByte a] r u) :
    ∃ v, exec .rti u = .next v ∧ v.cpu.pc = a ∧ v.cpu.p = p ∧ v.cpu.s = r ∧ v.cpu.iPoll = p.i := by
  obtain ⟨himage, h⟩ := h.afterDummyReads
  obtain ⟨hlow, h⟩ := h.pull
  obtain ⟨hhigh, h⟩ := h.pull
  have hflags : statusLoaded (pulledAfterDummyReads u).1 = p := himage ▸ statusLoaded_statusImage b p
  refine ⟨_, execRti_eq u, ?_, hflags, h.depth_of_nil, congrArg Flags.i hflags⟩
  dsimp only
  rw [hlow, hhigh, joined_highByte_lowByte]

end Returns

/-- Settles O51: each entry leaves its frame on the stack (`OnStack`), and each return pulls it, across a wrap of S too. -/
theorem returnsUndoTheirEntries : Obligations.ReturnsUndoTheirEntries := by
  unfold Obligations.ReturnsUndoTheirEntries
  refine ⟨fun l h s t u hram ht hsame => ?jsr, fun s t u hram hr hj ⟨k, hp⟩ ht hsame => ?interrupt, fun s t u hram ht hsame => ?brk⟩
  case jsr => exact exec_rts_of_onStack ((onStack_of_exec_jsr hram.rising ht).of_sameFrame hsame)
  case interrupt => exact exec_rti_of_onStack ((onStack_of_cpuStep_interrupt hram.rising hr hj hp ht).of_sameFrame hsame)
  case brk => exact exec_rti_of_onStack ((onStack_of_exec_brk hram.rising ht).of_sameFrame hsame)

end Sys2Proof.Machine
end

section
/-! PROOFS. Flags and system (46_flags_system R240 to R247): a flag instruction is one rule by the update it makes, and CLI and SEI also leave the old I
for the poll (10_state R41). -/

namespace Sys2Proof.Machine

/-! ### Implied mode -/

/-- The state after a flag instruction that leaves the poll alone: `write` sets or clears its one flag. -/
theorem idle_setFlags_eq (write : Flags → Flags) (s : State) :
    s.idle.setFlags (write s.idle.cpu.p) = afterIdle s fun c => { c with p := write c.p } := rfl

/-- The state after CLI and SEI: I becomes `v`, and the poll is left the I of before. -/
theorem idle_writeI_eq (v : Bool) (s : State) :
    s.idle.withCpu { s.idle.cpu with iPoll := s.idle.cpu.p.i, p := { s.idle.cpu.p with i := v } } =
      afterIdle s fun c => { c with p := { c.p with i := v }, iPoll := c.p.i } := rfl

/-! ### The statement -/

/-- Settles O20: five instructions are one rule, by the flag they write (R240, R241, R244 to R246), CLI and SEI another, by the value of I (R242, R243);
NOP writes no register, so its state is what the dummy read at PC leaves (R247). -/
theorem flagInstructionsWriteOneFlag : Obligations.FlagInstructionsWriteOneFlag := by
  unfold Obligations.FlagInstructionsWriteOneFlag
  intro s
  refine ⟨⟨costs_idled rfl s, ?clc⟩, ⟨costs_idled rfl s, ?sec⟩, ⟨costs_idled rfl s, ?cli⟩, ⟨costs_idled rfl s, ?sei⟩,
    ⟨costs_idled rfl s, ?cld⟩, ⟨costs_idled rfl s, ?sed⟩, ⟨costs_idled rfl s, ?clv⟩, ⟨costs_idled rfl s, ?nop⟩⟩
  case clc => exact congrArg Host.Outcome.next (idle_setFlags_eq (fun p => { p with c := false }) s)
  case sec => exact congrArg Host.Outcome.next (idle_setFlags_eq (fun p => { p with c := true }) s)
  case cli => exact congrArg Host.Outcome.next (idle_writeI_eq false s)
  case sei => exact congrArg Host.Outcome.next (idle_writeI_eq true s)
  case cld => exact congrArg Host.Outcome.next (idle_setFlags_eq (fun p => { p with d := false }) s)
  case sed => exact congrArg Host.Outcome.next (idle_setFlags_eq (fun p => { p with d := true }) s)
  case clv => exact congrArg Host.Outcome.next (idle_setFlags_eq (fun p => { p with v := false }) s)
  case nop => exact congrArg Host.Outcome.next (idle_eq s)

end Sys2Proof.Machine
end

section
/-! PROOFS. Runs of the machine (60_exceptions R300, R329, R336): what one CPU step can end in, said once, and from it that no run from a state with the
invariant ends in a fault, and that none is refused under the policy Full (30_encoding R86, R87). -/

namespace Sys2Proof.Machine

/-! ### The invariant at reset -/

/-- Settles O56: no store of the reset state lists a byte, and the PPU is in line 0. -/
theorem invariantHoldsAtReset : Obligations.InvariantHoldsAtReset := by
  unfold Obligations.InvariantHoldsAtReset
  exact ⟨⟨Memory.wf_nil _ _, Memory.wf_nil _ _, Memory.wf_nil _ _, Memory.wf_nil _ _⟩, by decide, by decide, rfl⟩

/-! ### What one step can end in -/

theorem wellFormed_full (i : Instr) : WellFormed .full i = true :=
  IllegalPolicy.full_admits i.stability

/-- The idle step of a jammed CPU (47_undocumented R273). -/
theorem cpuStep_of_jammed {s : State} (hj : s.cpu.jammed = true) (hr : s.cpu.resetPending = false) :
    cpuStep s = .next { opened s with cpu := { s.cpu with cycles := s.cpu.cycles + 1 }, stepCycles := 1 } := by
  unfold cpuStep
  dsimp only
  rw [if_neg (by simp [hr]), if_pos (by simp [hj])]
  rfl

/-- The instruction at PC is run or refused, and refused only under a policy that is not Full (30_encoding R86, R87). -/
theorem State.runInstruction_next_or_refused (s : State) :
    (∃ t, s.runInstruction = .next t) ∨ (∃ r, s.runInstruction = .refused r) ∧ s.params.policy ≠ .full := by
  cases h : WellFormed s.params.policy s.fetchInstr.1 with
  | true => exact .inl (State.runInstruction_of_wellFormed h)
  | false =>
    refine .inr ⟨⟨_, State.runInstruction_of_not_wellFormed h⟩, fun hfull => ?_⟩
    rw [hfull, wellFormed_full] at h
    exact Bool.noConfusion h

/-- A CPU step ends in no fault, and it is refused only under a policy that is not Full: of its four branches (60_exceptions R329) the last alone, the
instruction, does not always complete. -/
theorem cpuStep_next_or_refused (s : State) :
    (∃ t, cpuStep s = .next t) ∨ (∃ r, cpuStep s = .refused r) ∧ s.params.policy ≠ .full := by
  cases hr : s.cpu.resetPending with
  | true => exact .inl ⟨_, cpuStep_of_resetPending hr⟩
  | false =>
    cases hj : s.cpu.jammed with
    | true => exact .inl ⟨_, cpuStep_of_jammed hj hr⟩
    | false =>
      cases hp : s.poll with
      | some k => exact .inl ⟨_, cpuStep_of_interrupt hr hj hp⟩
      | none =>
        rw [cpuStep_of_noInterrupt hr hj hp]
        exact State.runInstruction_next_or_refused (started s)

/-- A step from a state with the invariant leads to another one, or it is refused under a policy that is not Full. -/
theorem step_of_inv {s : State} (hs : s.Inv) :
    (∃ t, step s = .next t ∧ t.Inv ∧ t.params = s.params) ∨ (∃ r, step s = .refused r) ∧ s.params.policy ≠ .full := by
  have ⟨_, hbounds, _, _⟩ := hs
  obtain ⟨u, hu⟩ | ⟨⟨r, hr⟩, hpolicy⟩ := cpuStep_next_or_refused s
  · obtain ⟨t, ht⟩ := step_next_of_cpuStep hbounds hu
    obtain ⟨hinv, -, hparams⟩ := everyStepKeepsTheInvariant s t hs ht
    exact .inl ⟨t, ht, hinv, hparams⟩
  · exact .inr ⟨⟨r, step_refused_of_cpuStep hbounds hr⟩, hpolicy⟩

/-! ### Runs with no breakpoint -/

/-- A run of `n` steps. -/
abbrev runSteps (n : Nat) (s : State) : Result :=
  runToBreakpoint (fun _ => false) n s

theorem runSteps_succ_of_next {s t : State} (h : step s = .next t) (n : Nat) : runSteps (n + 1) s = runSteps n t := by
  simp [runSteps, runToBreakpoint, h]

theorem runSteps_succ_of_refused {s : State} {r : Refusal} (h : step s = .refused r) (n : Nat) : runSteps (n + 1) s = .refused r := by
  simp [runSteps, runToBreakpoint, h]

theorem runSteps_succ_of_fault {s : State} {f : Fault} (h : step s = .fault f) (n : Nat) : runSteps (n + 1) s = .fault f := by
  simp [runSteps, runToBreakpoint, h]

/-- A run that answers a state has made its first step. -/
theorem exists_step_of_runSteps {n : Nat} {s t : State} (h : runSteps (n + 1) s = .next t) :
    ∃ u, step s = .next u ∧ runSteps n u = .next t := by
  cases hs : step s with
  | next u => exact ⟨u, rfl, (runSteps_succ_of_next hs n).symm.trans h⟩
  | fault f => cases (runSteps_succ_of_fault hs n).symm.trans h
  | refused r => cases (runSteps_succ_of_refused hs n).symm.trans h

/-- A run from a state with the invariant ends in one, or it is refused under a policy that is not Full. -/
theorem runSteps_of_inv (n : Nat) {s : State} (hs : s.Inv) :
    (∃ t, runSteps n s = .next t ∧ t.Inv) ∨ (∃ r, runSteps n s = .refused r) ∧ s.params.policy ≠ .full := by
  induction n generalizing s with
  | zero => exact .inl ⟨s, rfl, hs⟩
  | succ n ih =>
    obtain ⟨u, hu, hinv, hparams⟩ | ⟨⟨r, hr⟩, hpolicy⟩ := step_of_inv hs
    · rw [runSteps_succ_of_next hu, ← hparams]
      exact ih hinv
    · exact .inr ⟨⟨r, runSteps_succ_of_refused hr n⟩, hpolicy⟩

/-- Settles O58, by induction on the number of steps (`runSteps_of_inv`): each step keeps the invariant, and a meaning never stops. -/
theorem noProgramCanStopTheMachine : Obligations.NoProgramCanStopTheMachine := by
  unfold Obligations.NoProgramCanStopTheMachine
  intro n s hs
  obtain ⟨t, ht, hinv⟩ | ⟨⟨r, hr⟩, hpolicy⟩ := runSteps_of_inv n hs
  · exact ⟨fun f hf => (by cases ht.symm.trans hf), fun _ => ⟨t, ht, hinv⟩⟩
  · exact ⟨fun f hf => (by cases hr.symm.trans hf), fun hfull => absurd hfull hpolicy⟩

end Sys2Proof.Machine
end

section
/-! PROOFS. The undocumented opcodes (47_undocumented R251 to R272): each mnemonic is its access class over the table of its forms, with the stores of
R267 as one more class; and the instructions that run under the policy Full only (30_encoding R86). -/

namespace Sys2Proof.Machine

/-! ### The stores of R267 -/

/-- A mnemonic of R267, at every form of its table: the cost, with the read at `EAu`, which its modes always spend, and one access at the target; and
the state it answers. -/
theorem costs_and_exec_of_storeHigh {forms : List WriteForm} {op : AddrMode → State → Result} {r : State → Byte} {u : State → CpuState}
    (he : ∀ m s, op m s = .next { s with cpu := u s, bus := storedHigh m (r s) s.cpu s.bus })
    (hspends : forms.map (fun f => f.mode.spends) = forms.map fun _ => true)
    (hlisted : forms.map WriteForm.listed = forms.map (WriteForm.derived 1))
    (hexec : forms.map (fun f => exec f.instr) = forms.map fun f => op f.mode) (s : State) :
    ∀ f ∈ forms, costs f.instr f.code f.cycles s (storedHigh f.mode (r s) s.cpu s.bus) ∧
      exec f.instr s = .next { s with cpu := u s, bus := storedHigh f.mode (r s) s.cpu s.bus } := by
  intro f hf
  have hop : exec f.instr = op f.mode := List.map_inj_left.1 hexec f hf
  refine ⟨WriteForm.costs_of_listed (List.map_inj_left.1 hlisted f hf) ?_, hop ▸ he f.mode s⟩
  rw [storedHigh_log, List.map_inj_left.1 hspends f hf]
  rfl

/-! ### The instructions that run under Full only -/

/-- The row of the unstable class in R86's table. -/
theorem wellFormed_of_unstable {i : Instr} (h : i.stability = .unstable) (policy : IllegalPolicy) :
    WellFormed policy i = decide (policy = .full) := by
  rw [WellFormed, h]
  cases policy <;> rfl

/-! ### Implied mode -/

theorem exec_of_impliedNopForms : ∀ f ∈ impliedNopForms, exec f.1 = nopImpOp :=
  List.map_inj_left.1 rfl

theorem encode_of_impliedNopForms : ∀ f ∈ impliedNopForms, encode f.1 = [f.2] :=
  List.map_inj_left.1 rfl

/-! ### The statements -/

/-- Settles O21: SLO, RLA and SRE are the read-modify-write class, with the new byte combined into A (R251 to R253). -/
theorem sloRlaSreShiftThenCombine : Obligations.SloRlaSreShiftThenCombine := by
  unfold Obligations.SloRlaSreShiftThenCombine
  intro b l h s
  exact ⟨costs_and_exec_of_modify sloOp_eq rfl rfl s, costs_and_exec_of_modify rlaOp_eq rfl rfl s,
    costs_and_exec_of_modify sreOp_eq rfl rfl s⟩

/-- Settles O22: RRA, ISC and DCP are the read-modify-write class, with the new byte in the adder or in a comparison; RRA's carry in is the bit rotated
out (R254, R257, R258). -/
theorem rraIscDcpModifyThenCompute : Obligations.RraIscDcpModifyThenCompute := by
  unfold Obligations.RraIscDcpModifyThenCompute
  intro b l h s
  exact ⟨costs_and_exec_of_modify rraOp_eq rfl rfl s, costs_and_exec_of_modify iscOp_eq rfl rfl s,
    costs_and_exec_of_modify dcpOp_eq rfl rfl s⟩

/-- Settles O23: SAX is the write class, LAX and LAS the read class, over the tables of their forms (R255, R256, R266). -/
theorem saxLaxLasMoveAandX : Obligations.SaxLaxLasMoveAandX := by
  unfold Obligations.SaxLaxLasMoveAandX
  intro b l h s
  exact ⟨costs_and_exec_of_store saxOp_eq rfl rfl s, costs_and_exec_of_load laxOp_eq rfl rfl s, costs_and_exec_of_load lasOp_eq rfl rfl s⟩

/-- Settles O24: ANC, ALR, ARR and SBX are the read class at an immediate, each with its own flags (R259 to R262). -/
theorem ancAlrArrSbxCombineImmediates : Obligations.AncAlrArrSbxCombineImmediates := by
  unfold Obligations.AncAlrArrSbxCombineImmediates
  intro b s
  exact ⟨costs_and_exec_of_load ancOp_eq rfl rfl s, costs_and_exec_of_load alrOp_eq rfl rfl s, costs_and_exec_of_load arrOp_eq rfl rfl s,
    costs_and_exec_of_load sbxOp_eq rfl rfl s⟩

/-- Settles O25: ANE and LXA are the read class at an immediate, with the constants of the state (R264, R265), and both are unstable. -/
theorem aneLxaUseTheMagicConstants : Obligations.AneLxaUseTheMagicConstants := by
  unfold Obligations.AneLxaUseTheMagicConstants
  intro b s
  have hunstable : ∀ f ∈ aneForms b ++ lxaForms b, f.instr.stability = .unstable := List.map_inj_left.1 rfl
  exact ⟨costs_and_exec_of_load aneOp_eq rfl rfl s, costs_and_exec_of_load lxaOp_eq rfl rfl s,
    fun f hf => wellFormed_of_unstable (hunstable f hf)⟩

/-- Settles O26: SHA, SHX, SHY and TAS are the one rule of R267 with their own register value (R268 to R271), and all are unstable. -/
theorem highByteStoresMaskTheirValue : Obligations.HighByteStoresMaskTheirValue := by
  unfold Obligations.HighByteStoresMaskTheirValue
  intro b l h s
  have hunstable : ∀ f ∈ highForms b l h, f.instr.stability = .unstable := List.map_inj_left.1 rfl
  exact ⟨costs_and_exec_of_storeHigh shaOp_eq rfl rfl rfl s, costs_and_exec_of_storeHigh shxOp_eq rfl rfl rfl s,
    costs_and_exec_of_storeHigh shyOp_eq rfl rfl rfl s, costs_and_exec_of_storeHigh tasOp_eq rfl rfl rfl s,
    fun f hf => wellFormed_of_unstable (hunstable f hf)⟩

/-- Settles O27: the NOPs with an operand are the read class with no update, and the implied ones make the dummy read at PC alone (R272). -/
theorem undocumentedNopsOnlyAccessTheBus : Obligations.UndocumentedNopsOnlyAccessTheBus := by
  unfold Obligations.UndocumentedNopsOnlyAccessTheBus
  intro b l h s
  refine ⟨costs_and_exec_of_load nopOp_eq rfl rfl s, fun f hf => ⟨costs_idled (encode_of_impliedNopForms f hf) s, ?_⟩⟩
  rw [exec_of_impliedNopForms f hf, nopImpOp, idle_eq]
  rfl

end Sys2Proof.Machine
end

section
/-! PROOFS. Interrupts and reset (60_exceptions R303 to R311; 70_reset R361, R362): the poll, the sequences of NMI, IRQ and RESET as CPU steps, and
the poll after them. -/

namespace Sys2Proof.Machine

/-! ### The poll (R305, R307) -/

theorem State.poll_of_suppressed {s : State} (h : s.cpu.pollSuppress = true) : s.poll = none :=
  if_pos h

/-- Settles O31: suppression comes first, then what the poll takes with none (`State.poll_eq_taken`): NMI, then the IRQ line under its mask. -/
theorem pollTakesNmiBeforeIrq : Obligations.PollTakesNmiBeforeIrq := by
  unfold Obligations.PollTakesNmiBeforeIrq
  intro s
  cases hs : s.cpu.pollSuppress with
  | true =>
    have hp := State.poll_of_suppressed hs
    exact ⟨fun _ => hp, nofun, nofun, fun _ _ _ => hp, fun _ _ => hp⟩
  | false =>
    have hp := State.poll_eq_taken hs
    refine ⟨nofun, fun _ hn => ?nmi, fun _ hn hline hi => ?irq, fun hn hframe hdmc => ?low, fun hn hi => ?masked⟩
    case nmi => rw [hp, taken, if_pos hn]
    case irq => simp [hp, taken, hn, hline, hi]
    case low => simp [hp, taken, hn, hframe, hdmc]
    case masked => simp [hp, taken, hn, hi]

/-! ### The NMI and IRQ sequence (R309) -/

theorem pushed_dmaRequest (v : Byte) (s : State) : (pushed v s).bus.dmaRequest = s.bus.dmaRequest :=
  Bus.write_dmaRequest v s.bus (Nat.lt_trans (stackCell_lt s.cpu.s) (by decide))

theorem savedFrame_dmaRequest (a : Addr) (v : Byte) (s : State) : (savedFrame a v s).bus.dmaRequest = s.bus.dmaRequest := by
  simp only [savedFrame, pushed_dmaRequest]

theorem vectorRead_dmaRequest (n : Nat) (b : Bus) : (vectorRead n b).2.dmaRequest = b.dmaRequest := by
  simp only [vectorRead, Bus.read_dmaRequest]

/-- The state in which an NMI or IRQ sequence has made its two dummy reads at PC and pushed its frame. -/
def interruptFrame (s : State) : State :=
  savedFrame s.cpu.pc (statusImage false s.cpu.p) { s with bus := ((s.bus.read s.cpu.pc).2.read s.cpu.pc).2 }

/-- The vector of an interrupt (20_memory R64). -/
def Interrupt.vector (k : Interrupt) : Nat :=
  if k = .nmi then 0xFFFA else 0xFFFE

/-- `nmi_pending` after the sequence of an interrupt (R309). -/
def Interrupt.leaves (k : Interrupt) (pending : Bool) : Bool :=
  if k = .nmi then false else pending

/-- The state with other values of `nmi_pending` and `poll_suppress`. -/
def withPoll (pending suppress : Bool) (s : State) : State :=
  s.withCpu { s.cpu with nmiPending := pending, pollSuppress := suppress }

theorem pushed_withPoll (v : Byte) (p q : Bool) (s : State) : pushed v (withPoll p q s) = withPoll p q (pushed v s) := rfl

/-- The frame has no place for `nmi_pending` and `poll_suppress`, and pushing it leaves them alone. -/
theorem interruptFrame_withPoll (p q : Bool) (s : State) : interruptFrame (withPoll p q s) = withPoll p q (interruptFrame s) := by
  have hread (b : Bus) : ({ withPoll p q s with bus := b } : State) = withPoll p q { s with bus := b } := rfl
  rw [interruptFrame, hread]
  simp only [savedFrame, pushed_withPoll]
  rfl

/-- Both sequences are the shared entry after two dummy reads at PC, with `nmi_pending` cleared first for NMI. -/
theorem interruptSequence_eq_enter (k : Interrupt) (s : State) :
    s.interruptSequence k =
      (withPoll (k.leaves s.cpu.nmiPending) s.cpu.pollSuppress s.idle.idle).enterInterrupt false (cell k.vector) := by
  cases k <;> rfl

theorem interruptSequence_eq (k : Interrupt) (s : State) :
    s.interruptSequence k =
      { interruptFrame s with
        cpu :=
          { (interruptFrame s).cpu with
            pc := (vectorRead k.vector (interruptFrame s).bus).1
            p := { s.cpu.p with i := true }
            nmiPending := k.leaves s.cpu.nmiPending
            iPoll := true
            pollSuppress := true }
        bus := (vectorRead k.vector (interruptFrame s).bus).2 } := by
  rw [interruptSequence_eq_enter, enterInterrupt_eq]
  have hframe := interruptFrame_withPoll (k.leaves s.cpu.nmiPending) s.cpu.pollSuppress s
  dsimp only
  change ({ interruptFrame (withPoll _ _ s) with cpu := _, bus := _ } : State) = _
  rw [hframe]
  rfl

theorem interruptFrame_log (s : State) : (interruptFrame s).bus.log.length = s.bus.log.length + 5 := rfl

theorem interruptFrame_cycles (s : State) : (interruptFrame s).cpu.cycles = s.cpu.cycles := by
  obtain ⟨r, hframe⟩ := savedFrame_cpu s.cpu.pc (statusImage false s.cpu.p) { s with bus := ((s.bus.read s.cpu.pc).2.read s.cpu.pc).2 }
  rw [interruptFrame, hframe]

/-- Each access of a step is one cycle (40_addressing R113). -/
theorem State.countCycles_of_log {s : State} {n : Nat} (h : s.bus.log.length = n) :
    s.countCycles = { s with cpu := { s.cpu with cycles := s.cpu.cycles + n }, stepCycles := n } := by
  rw [← h]
  rfl

/-- None of the three writes of the sequence reaches $4014. -/
theorem interruptSequence_dmaRequest (k : Interrupt) (s : State) : (s.interruptSequence k).bus.dmaRequest = s.bus.dmaRequest := by
  rw [interruptSequence_eq]
  dsimp only
  rw [vectorRead_dmaRequest, interruptFrame, savedFrame_dmaRequest, Bus.read_dmaRequest, Bus.read_dmaRequest]

/-- A CPU step that takes an interrupt is the sequence and the count of its accesses. -/
theorem cpuStep_interrupt_eq {s : State} {k : Interrupt} (hr : s.cpu.resetPending = false) (hj : s.cpu.jammed = false)
    (hp : s.poll = some k) : cpuStep s = .next ((started s).interruptSequence k).countCycles := by
  have hdma : ((started s).interruptSequence k).countCycles.bus.dmaRequest = none := interruptSequence_dmaRequest k (started s)
  rw [cpuStep_of_interrupt hr hj hp, State.runDma_none hdma]

/-- Settles O32: the step is the sequence, whose seven accesses are its cycles (R309). -/
theorem interruptSequenceSavesAndVectors : Obligations.InterruptSequenceSavesAndVectors := by
  unfold Obligations.InterruptSequenceSavesAndVectors
  intro k s hr hj hp
  have hlog : (vectorRead k.vector (interruptFrame (opened s)).bus).2.log.length = 7 := by
    rw [vectorRead_log_length, interruptFrame_log]
    rfl
  have hsequence := interruptSequence_eq k (started s)
  rw [show started s = withPoll s.cpu.nmiPending false (opened s) from rfl, interruptFrame_withPoll] at hsequence
  have hcount := State.countCycles_of_log ((congrArg (·.bus.log.length) hsequence).trans hlog)
  refine ⟨hlog, (cpuStep_interrupt_eq hr hj hp).trans (congrArg Host.Outcome.next (hcount.trans ?_))⟩
  have hcycles : s.cpu.cycles = (interruptFrame (opened s)).cpu.cycles := (interruptFrame_cycles (opened s)).symm
  rw [hsequence, hcycles]
  -- the projections of the record updates first: `rfl` on the goal with them recurses too deep
  dsimp only
  rfl

/-! ### The reset sequence (70_reset R362) -/

/-- The CPU step of a pending reset: its seven accesses are its cycles, and S has gone down by three. -/
theorem cpuStep_reset_eq {s : State} (h : s.cpu.resetPending = true) :
    (vectorRead 0xFFFC (resetAccesses (opened s))).2.log.length = 7 ∧
      cpuStep s = .next
        { s with
          cpu :=
            { s.cpu with
              s := s.cpu.s - 1 - 1 - 1
              pc := (vectorRead 0xFFFC (resetAccesses (opened s))).1
              p := { s.cpu.p with i := true }
              nmiPending := false
              resetPending := false
              iPoll := true
              pollSuppress := true
              jammed := false
              cycles := s.cpu.cycles + 7 }
          bus := (vectorRead 0xFFFC (resetAccesses (opened s))).2
          stepCycles := 7 } := by
  have hlog : (vectorRead 0xFFFC (resetAccesses (opened s))).2.log.length = 7 := by
    rw [vectorRead_log_length, resetAccesses_log_length]
    rfl
  have hsequence := resetSequence_eq (opened s)
  have hcount := State.countCycles_of_log ((congrArg (·.bus.log.length) hsequence).trans hlog)
  refine ⟨hlog, (cpuStep_of_resetPending h).trans (congrArg Host.Outcome.next (hcount.trans ?_))⟩
  rw [hsequence]
  rfl

theorem pred_pred_eq (v : Byte) : v - 1 - 1 = u8 (v.toNat + 254) := by
  rw [pred_eq, pred_eq, u8_toNat_add]
  exact eq_u8 (by rw [u8_toNat]; omega)

theorem pred_pred_pred_eq (v : Byte) : v - 1 - 1 - 1 = u8 (v.toNat + 253) := by
  rw [pred_pred_eq, pred_eq, u8_toNat_add]
  exact eq_u8 (by rw [u8_toNat]; omega)

/-- Settles O33: the step of a pending reset (`cpuStep_reset_eq`), with the stack slots and S by their numbers. -/
theorem resetSequenceWritesNothing : Obligations.ResetSequenceWritesNothing := by
  unfold Obligations.ResetSequenceWritesNothing
  intro s h
  have hstep := cpuStep_reset_eq h
  have hslots : resetAccesses (opened s) =
      ((((((opened s).bus.read s.cpu.pc).2.read s.cpu.pc).2.read (stackCell s.cpu.s)).2.read
        (stackCell (u8 (s.cpu.s.toNat + 255)))).2.read (stackCell (u8 (s.cpu.s.toNat + 254)))).2 := by
    rw [← pred_eq, ← pred_pred_eq]
    rfl
  rwa [hslots, pred_pred_pred_eq] at hstep

/-- The reset sequence frees the CPU, writes no memory and keeps A, X and Y. -/
theorem cpuStep_reset_frame {s : State} (h : s.cpu.resetPending = true) :
    ∃ u, cpuStep s = .next u ∧ u.cpu.jammed = false ∧ u.cpu.resetPending = false ∧ u.cpu.pollSuppress = true ∧ u.bus.ram = s.bus.ram ∧
      u.cpu.a = s.cpu.a ∧ u.cpu.x = s.cpu.x ∧ u.cpu.y = s.cpu.y := by
  obtain ⟨-, hu⟩ := cpuStep_reset_eq h
  refine ⟨_, hu, rfl, rfl, rfl, ?_, rfl, rfl, rfl⟩
  simp only [vectorRead, resetAccesses, Bus.read_ram]
  rfl

/-- Settles O35: RESET is pending, so the next step is the reset sequence, and then its device ticks. -/
theorem hostResetKeepsTheMachine : Obligations.HostResetKeepsTheMachine := by
  unfold Obligations.HostResetKeepsTheMachine
  intro s hb
  obtain ⟨u, hu, hjammed, hpending, -, hram, ha, hx, hy⟩ := cpuStep_reset_frame (s := s.hostReset) rfl
  refine ⟨rfl, u.runDevices, step_next_iff.2 ⟨hb, u, hu, rfl⟩, ?_⟩
  have hdevices := u.runDevices_keeps
  rw [hdevices.cpu, hdevices.ram, hdevices.mapper]
  exact ⟨hjammed, hpending, hram, (cpuStep_keeps hu).mapper, ha, hx, hy⟩

/-! ### The poll after a handler has been entered (R311) -/

/-- The device ticks of a step leave `poll_suppress` as its CPU step left it. -/
theorem poll_eq_none_of_cpuStep {s t u : State} (ht : step s = .next t) (hu : cpuStep s = .next u) (h : u.cpu.pollSuppress = true) :
    t.poll = none := by
  obtain ⟨-, v, hv, rfl⟩ := step_next_iff.1 ht
  cases hu.symm.trans hv
  exact State.poll_of_suppressed ((congrArg CpuState.pollSuppress u.runDevices_keeps.cpu).trans h)

/-- BRK leaves `poll_suppress` set, and the end of its step keeps that. -/
theorem pollSuppress_of_brk (s : State) :
    ∃ u, exec .brk s = .next u ∧ (u.endInstruction .brk).cpu.pollSuppress = true := by
  refine ⟨_, execBrk_eq s, ?_⟩
  obtain ⟨n, hend⟩ := State.endInstruction_cpu .brk _
  exact congrArg CpuState.pollSuppress hend

/-- Settles O37: each of the three entries leaves `poll_suppress` set. -/
theorem handlersFirstInstructionIsNotInterrupted : Obligations.HandlersFirstInstructionIsNotInterrupted := by
  unfold Obligations.HandlersFirstInstructionIsNotInterrupted
  rintro s t ht (hr | ⟨hr, hj, k, hp⟩ | hbrk)
  · obtain ⟨u, hu, -, -, hsuppress, -⟩ := cpuStep_reset_frame hr
    exact poll_eq_none_of_cpuStep ht hu hsuppress
  · exact poll_eq_none_of_cpuStep ht (cpuStep_interrupt_eq hr hj hp) (by rw [State.countCycles_cpu, interruptSequence_eq])
  · obtain ⟨u, hu, hsuppress⟩ := pollSuppress_of_brk (ready .brk s)
    exact poll_eq_none_of_cpuStep ht (cpuStep_of_runs hbrk hu) hsuppress

end Sys2Proof.Machine
end

section
/-! PROOFS. JAM (47_undocumented R273; 60_exceptions R329): the opcode stops the CPU, every later step of a jammed CPU is idle, and a reset ends it. -/

namespace Sys2Proof.Machine

theorem exec_of_jamForms : ∀ f ∈ jamForms, exec f.1 = jamOp :=
  List.map_inj_left.1 rfl

theorem encode_of_jamForms : ∀ f ∈ jamForms, encode f.1 = [f.2] :=
  List.map_inj_left.1 rfl

/-- The CPU of a jammed machine some steps later: only the NMI edge detector and the cycle count have moved. -/
def IdledFor (n : Nat) (s t : State) : Prop :=
  t.cpu = { s.cpu with nmiPending := t.cpu.nmiPending, nmiPrev := t.cpu.nmiPrev, cycles := s.cpu.cycles + n } ∧ t.bus.ram = s.bus.ram

theorem IdledFor.trans {m n : Nat} {s t u : State} (h : IdledFor m s t) (k : IdledFor n t u) : IdledFor (m + n) s u := by
  obtain ⟨hcpu, hram⟩ := h
  obtain ⟨kcpu, kram⟩ := k
  refine ⟨?_, kram.trans hram⟩
  rw [kcpu, hcpu, Nat.add_assoc]

theorem IdledFor.jammed {n : Nat} {s t : State} (h : IdledFor n s t) : t.cpu.jammed = s.cpu.jammed := by
  obtain ⟨hcpu, -⟩ := h
  rw [hcpu]

theorem IdledFor.resetPending {n : Nat} {s t : State} (h : IdledFor n s t) : t.cpu.resetPending = s.cpu.resetPending := by
  obtain ⟨hcpu, -⟩ := h
  rw [hcpu]

/-- A step of a jammed machine: its CPU step is idle, and the device ticks sample NMI. -/
theorem idledFor_of_step {s t : State} (hj : s.cpu.jammed = true) (hr : s.cpu.resetPending = false) (h : step s = .next t) :
    IdledFor 1 s t := by
  obtain ⟨-, u, hu, rfl⟩ := step_next_iff.1 h
  cases (cpuStep_of_jammed hj hr).symm.trans hu
  have hdevices := State.runDevices_keeps
    { opened s with cpu := { s.cpu with cycles := s.cpu.cycles + 1 }, stepCycles := 1 }
  exact ⟨hdevices.cpu, hdevices.ram⟩

/-- A run of a jammed machine. -/
theorem idledFor_of_runSteps (n : Nat) {s t : State} (hj : s.cpu.jammed = true) (hr : s.cpu.resetPending = false)
    (h : runSteps n s = .next t) : IdledFor n s t := by
  induction n generalizing s with
  | zero =>
    cases h
    exact ⟨rfl, rfl⟩
  | succ n ih =>
    obtain ⟨u, hu, hrest⟩ := exists_step_of_runSteps h
    have hfirst := idledFor_of_step hj hr hu
    have hall := hfirst.trans (ih (hfirst.jammed.trans hj) (hfirst.resetPending.trans hr) hrest)
    rwa [Nat.add_comm 1 n] at hall

/-- Settles O28: JAM is one update of the CPU; the idle steps follow by induction on their number (`idledFor_of_runSteps`), and the reset sequence
clears `jammed` (`cpuStep_reset_frame`). -/
theorem jamStopsTheCpuUntilReset : Obligations.JamStopsTheCpuUntilReset := by
  unfold Obligations.JamStopsTheCpuUntilReset
  refine ⟨fun s f hf => ⟨⟨encode_of_jamForms f hf, rfl⟩, ?_⟩, fun s hj hr => cpuStep_of_jammed hj hr,
    fun n s t hj hr h => idledFor_of_runSteps n hj hr h, fun s hr => ?_⟩
  · rw [exec_of_jamForms f hf]
    rfl
  · obtain ⟨u, hu, hjammed, -⟩ := cpuStep_reset_frame hr
    exact ⟨u, hu, hjammed⟩

end Sys2Proof.Machine
end

section
/-! PROOFS. Device ticks (60_exceptions R304, R319, R323, R330, R331): the vertical-blank flag and the NMI edge detector over one tick, the PPU position
over any number of ticks, and the ticks owed for a step. -/

namespace Sys2Proof.Machine

/-! ### One PPU tick -/

theorem PpuState.raiseFlags_vblank (p : PpuState) :
    p.raiseFlags.vblank =
      (if p.scanline = 241 ∧ p.dot = 1 then true else if p.scanline = -1 ∧ p.dot = 1 then false else p.vblank) := by
  unfold PpuState.raiseFlags
  split
  · rfl
  · split <;> rfl

theorem PpuState.nextLine_vblank (region : Region) (p : PpuState) : (p.nextLine region).vblank = p.vblank := by
  unfold PpuState.nextLine
  split <;> rfl

/-- Of a tick's three parts the first alone writes the vertical-blank flag. -/
theorem PpuState.tick_vblank (region : Region) (p : PpuState) :
    (p.tick region).vblank =
      (if p.scanline = 241 ∧ p.dot = 1 then true else if p.scanline = -1 ∧ p.dot = 1 then false else p.vblank) := by
  rw [← p.raiseFlags_vblank]
  unfold PpuState.tick
  dsimp only
  split
  · exact PpuState.nextLine_vblank region p.raiseFlags.render
  · rfl

/-- Settles O38: the vertical-blank flag is written by the position alone, and the sample after the tick compares the line with the last sample. -/
theorem vblankAndNmiFollowThePpuTick : Obligations.VblankAndNmiFollowThePpuTick := by
  unfold Obligations.VblankAndNmiFollowThePpuTick
  constructor
  · intro region p
    obtain ⟨-, hoam, hctrl, hmask, haddr, -⟩ := p.tick_keeps region
    exact ⟨p.tick_vblank region, hctrl, hmask, haddr, hoam⟩
  · intro s
    dsimp only
    rw [← bit_eq]
    rfl

/-! ### The position -/

/-- The dots of a frame (R323). -/
def frameDots (region : Region) : Int :=
  (lastLine region + 2) * 341

theorem frameDots_pos (region : Region) : 0 < frameDots region := by
  cases region <;> decide

/-- Rendering is off (R323). -/
def PpuState.RenderingOff (p : PpuState) : Prop :=
  numBit p.mask 3 = false ∧ numBit p.mask 4 = false

theorem PpuState.RenderingOff.tick {p : PpuState} (h : p.RenderingOff) (region : Region) : (p.tick region).RenderingOff := by
  obtain ⟨-, -, -, hmask, -, -⟩ := p.tick_keeps region
  rwa [PpuState.RenderingOff, hmask]

/-- With rendering off a line ends at dot 340 only. -/
theorem PpuState.atLineEnd_of_renderingOff {p : PpuState} (h : p.RenderingOff) (region : Region) :
    p.atLineEnd region = decide (p.dot = 340) := by
  obtain ⟨h3, h4⟩ := h
  simp [PpuState.atLineEnd, PpuState.rendering, bit_eq, h3, h4]

theorem PpuState.position_bounds {region : Region} {p : PpuState} (h : p.inBounds region) :
    0 ≤ p.position ∧ p.position < frameDots region := by
  obtain ⟨hlo, hhi, hdot⟩ := h
  unfold PpuState.position frameDots
  constructor
  · omega
  · omega

/-- Where the PPU is, and how many frames it has signalled. -/
def PpuState.place (p : PpuState) : Int × Nat × Nat :=
  (p.scanline, p.dot, p.framesReady)

theorem PpuState.place_raiseFlags_render (p : PpuState) : p.raiseFlags.render.place = p.place := by
  rw [p.raiseFlags_frame]
  rfl

/-- The wrap at the end of a line (R323, R332). -/
theorem PpuState.place_nextLine (region : Region) (p : PpuState) :
    (p.nextLine region).place =
      if p.scanline = lastLine region then (-1, 0, p.framesReady + 1) else (p.scanline + 1, 0, p.framesReady) := by
  unfold PpuState.nextLine
  by_cases h : p.scanline = lastLine region
  · rw [if_pos h, if_pos h]
    rfl
  · rw [if_neg h, if_neg h]
    rfl

/-- Where a tick with rendering off moves the PPU. -/
theorem PpuState.place_tick (region : Region) {p : PpuState} (hr : p.RenderingOff) :
    (p.tick region).place =
      if p.dot = 340 then
        if p.scanline = lastLine region then (-1, 0, p.framesReady + 1) else (p.scanline + 1, 0, p.framesReady)
      else (p.scanline, p.dot + 1, p.framesReady) := by
  let q := p.raiseFlags.render
  have hq : q.place = p.place := p.place_raiseFlags_render
  simp only [PpuState.place, Prod.mk.injEq] at hq
  obtain ⟨hscanline, hdot, hready⟩ := hq
  have hend : q.atLineEnd region = decide (p.dot = 340) := by
    have hoff : q.RenderingOff := by
      rw [show q = p.raiseFlags.render from rfl, p.raiseFlags_frame]
      exact hr
    rw [PpuState.atLineEnd_of_renderingOff hoff, hdot]
  change (if q.atLineEnd region then q.nextLine region else { q with dot := q.dot + 1 }).place = _
  rw [hend]
  by_cases h : p.dot = 340
  · rw [if_pos (decide_eq_true h), if_pos h, PpuState.place_nextLine, hscanline, hready]
  · rw [if_neg (by simp [h]), if_neg h, PpuState.place, hscanline, hdot, hready]

/-- The position is the last of a frame just at the last dot of the last line. -/
theorem PpuState.position_last_iff {region : Region} {p : PpuState} (hb : p.inBounds region) :
    p.position + 1 = frameDots region ↔ p.dot = 340 ∧ p.scanline = lastLine region := by
  obtain ⟨hlo, hhi, hdot⟩ := hb
  unfold PpuState.position frameDots
  omega

/-- A tick with rendering off adds 1 to the position, but past the last one signals the frame and begins the next. -/
theorem PpuState.tick_position {region : Region} {p : PpuState} (hb : p.inBounds region) (hr : p.RenderingOff) :
    ((p.tick region).position, (p.tick region).framesReady) =
      if p.position + 1 = frameDots region then (0, p.framesReady + 1) else (p.position + 1, p.framesReady) := by
  have hplace := PpuState.place_tick region hr
  simp only [PpuState.position_last_iff hb]
  split_ifs at hplace with hdot hline
  all_goals
    simp only [PpuState.place, Prod.mk.injEq] at hplace
    obtain ⟨hscanline', hdot', hready'⟩ := hplace
    rw [PpuState.position, hscanline', hdot', hready']
  · rw [if_pos ⟨hdot, hline⟩]
    rfl
  · rw [if_neg fun h => hline h.2, PpuState.position, hdot]
    simp only [Prod.mk.injEq, and_true]
    omega
  · rw [if_neg fun h => hdot h.1, PpuState.position]
    simp only [Prod.mk.injEq, and_true]
    omega

/-- The same by division: a position past the frame's dots is one of the next frame. -/
theorem PpuState.tick_position_div {region : Region} {p : PpuState} (hb : p.inBounds region) (hr : p.RenderingOff) :
    (p.tick region).position = (p.position + 1) % frameDots region ∧
      ((p.tick region).framesReady : Int) = p.framesReady + (p.position + 1) / frameDots region := by
  obtain ⟨hlo, hhi⟩ := PpuState.position_bounds hb
  have hmoves := PpuState.tick_position hb hr
  split_ifs at hmoves with hlast
  all_goals
    simp only [Prod.mk.injEq] at hmoves
    obtain ⟨hposition, hready⟩ := hmoves
    rw [hposition, hready]
  · rw [hlast, Int.emod_self, Int.ediv_self (by omega)]
    exact ⟨rfl, rfl⟩
  · rw [Int.emod_eq_of_lt (by omega) (by omega), Int.ediv_eq_zero_of_lt (by omega) (by omega), Int.add_zero]
    exact ⟨rfl, rfl⟩

/-- Dividing in two stages, with the remainder carried: the quotients add up. -/
theorem ediv_add_emod_add_ediv (a n : Int) {b : Int} (hb : b ≠ 0) : a / b + (a % b + n) / b = (a + n) / b := by
  rw [add_comm (a / b), ← Int.add_mul_ediv_right _ _ hb, add_right_comm, Int.emod_add_ediv_mul]

theorem PpuState.ticked_position {region : Region} (n : Nat) {p : PpuState} (hb : p.inBounds region) (hr : p.RenderingOff) :
    (p.ticked region n).position = (p.position + n) % frameDots region ∧ (p.ticked region n).inBounds region ∧
      ((p.ticked region n).framesReady : Int) = p.framesReady + (p.position + n) / frameDots region := by
  induction n generalizing p with
  | zero =>
    obtain ⟨hlo, hhi⟩ := PpuState.position_bounds hb
    rw [Int.natCast_zero, Int.add_zero, Int.emod_eq_of_lt hlo hhi, Int.ediv_eq_zero_of_lt hlo hhi, Int.add_zero]
    exact ⟨rfl, hb, rfl⟩
  | succ n ih =>
    obtain ⟨hpos, hready⟩ := PpuState.tick_position_div hb hr
    obtain ⟨-, -, -, -, -, hbounds⟩ := p.tick_keeps region
    obtain ⟨ipos, ibounds, iready⟩ := ih (hbounds hb) (hr.tick region)
    have hsum : p.position + 1 + n = p.position + (n + 1 : Nat) := by omega
    refine ⟨ipos.trans ?_, ibounds, iready.trans ?_⟩
    · rw [hpos, Int.emod_add_emod, hsum]
    · rw [hready, hpos, add_assoc, ediv_add_emod_add_ediv _ _ (frameDots_pos region).ne', hsum]

/-! ### The first vertical blank -/

theorem PpuState.ticked_succ (region : Region) (n : Nat) (p : PpuState) : p.ticked region (n + 1) = (p.ticked region n).tick region := by
  induction n generalizing p with
  | zero => rfl
  | succ n ih => exact ih (p.tick region)

/-- The position (241, 1) as a number (R323). -/
theorem PpuState.vblankDot_iff {region : Region} {p : PpuState} (hb : p.inBounds region) :
    (p.scanline = 241 ∧ p.dot = 1) ↔ p.position = 82523 := by
  obtain ⟨-, -, hdot⟩ := hb
  unfold PpuState.position
  omega

/-- Power-on is at (0, 0), and the ticks up to the first vertical blank pass no line end of a frame. -/
theorem powerOn_ticked {n : Nat} (hn : n ≤ 82182) :
    (PpuState.powerOn.ticked .ntsc n).position = 341 + n ∧ (PpuState.powerOn.ticked .ntsc n).inBounds .ntsc := by
  obtain ⟨hposition, hbounds, -⟩ := PpuState.ticked_position (region := .ntsc) (p := PpuState.powerOn) n (by decide) ⟨rfl, rfl⟩
  refine ⟨hposition.trans (Int.emod_eq_of_lt ?_ ?_), hbounds⟩
  · change (0 : Int) ≤ 341 + n
    omega
  · change (341 + n : Int) < 89342
    omega

theorem powerOn_ticked_vblank {n : Nat} (hn : n ≤ 82182) : (PpuState.powerOn.ticked .ntsc n).vblank = false := by
  induction n with
  | zero => rfl
  | succ n ih =>
    obtain ⟨hposition, hbounds⟩ := powerOn_ticked (Nat.le_of_succ_le hn)
    have hbefore : ¬ ((PpuState.powerOn.ticked .ntsc n).scanline = 241 ∧ (PpuState.powerOn.ticked .ntsc n).dot = 1) := by
      rw [PpuState.vblankDot_iff hbounds, hposition]
      omega
    rw [PpuState.ticked_succ, PpuState.tick_vblank, if_neg hbefore, ih (Nat.le_of_succ_le hn), ite_self]

/-- Settles O39: a tick with rendering off adds 1 to the position, modulo a frame's dots; from power-on that counts the ticks up to (241, 1). -/
theorem frameHasItsNumberOfDots : Obligations.FrameHasItsNumberOfDots := by
  unfold Obligations.FrameHasItsNumberOfDots
  refine ⟨rfl, fun region p n hb h3 h4 => PpuState.ticked_position n hb ⟨h3, h4⟩, fun n hn => powerOn_ticked_vblank hn, ?_⟩
  obtain ⟨hposition, hbounds⟩ := powerOn_ticked (Nat.le_refl 82182)
  rw [PpuState.ticked_succ, PpuState.tick_vblank, if_pos ((PpuState.vblankDot_iff hbounds).2 hposition)]

/-! ### The ticks owed for a step (R329 to R331) -/

/-- PAL owes 16/5 of a tick a cycle, and carries the remainder. -/
theorem ppuTicks_pal (f n : Nat) : 5 * ppuTicks .pal f n + nextDotFrac .pal f n = 16 * n + f ∧ nextDotFrac .pal f n < 5 :=
  ⟨Nat.div_add_mod (16 * n + f) 5, Nat.mod_lt _ (by decide)⟩

/-- Settles O53: a CPU step counts its cycles and moves no device (`cpuStep_keeps`), and the ticks owed for these are then run
(`State.runDevices_keeps`). -/
theorem devicesTickForEveryCycle : Obligations.DevicesTickForEveryCycle := by
  unfold Obligations.DevicesTickForEveryCycle
  refine ⟨fun _ _ => rfl, ppuTicks_pal, fun _ _ _ => rfl, fun s t h => ?_⟩
  obtain ⟨-, u, hu, rfl⟩ := step_next_iff.1 h
  have hcpu := cpuStep_keeps hu
  have hdevices := u.runDevices_keeps
  rw [hdevices.stepCycles, hdevices.cpu, hdevices.apuTicks, hdevices.ppuTicks, hdevices.dotFrac]
  dsimp only
  rw [hcpu.params, hcpu.dotFrac, hcpu.apuTicks, hcpu.ppuTicks]
  exact ⟨hcpu.positive, hcpu.cycles, rfl, rfl, rfl⟩

end Sys2Proof.Machine
end

section
/-! PROOFS. Devices through the Bus: reads of the status registers (60_exceptions R321, R325, R326) and OAM DMA (R328; 20_memory R60). -/

namespace Sys2Proof.Machine

/-! ### The status registers -/

/-- A byte of three flags over the low five bits of another. -/
theorem flags_over_low_bits (k : Nat) (hk : k < 8) (v : Byte) : u8 (32 * k) ||| (v &&& 0x1F) = u8 (32 * k + v.toNat % 32) := by
  apply BitVec.eq_of_toNat_eq
  have hlow : (v &&& 0x1F).toNat = v.toNat % 2 ^ 5 := (BitVec.toNat_and v 0x1F).trans (Nat.and_two_pow_sub_one_eq_mod v.toNat 5)
  rw [BitVec.toNat_or, hlow, u8_toNat, u8_toNat, Nat.mod_eq_of_lt (by omega),
    show 32 * k = 2 ^ 5 * k from rfl, ← Nat.two_pow_add_eq_or_of_lt (Nat.mod_lt _ (by decide))]
  omega

/-- The byte of PPUSTATUS by its number (R321). -/
theorem PpuState.statusByte_eq (p : PpuState) (openBus : Byte) :
    p.statusByte openBus =
      u8 (128 * p.vblank.toNat + 64 * p.sprite0Hit.toNat + 32 * p.spriteOverflow.toNat + openBus.toNat % 32) := by
  have hflags : bitAt 7 p.vblank ||| bitAt 6 p.sprite0Hit ||| bitAt 5 p.spriteOverflow =
      u8 (32 * (4 * p.vblank.toNat + 2 * p.sprite0Hit.toNat + p.spriteOverflow.toNat)) := by
    cases p.vblank <;> cases p.sprite0Hit <;> cases p.spriteOverflow <;> rfl
  have hv := p.vblank.toNat_le
  have hs := p.sprite0Hit.toNat_le
  have ho := p.spriteOverflow.toNat_le
  rw [PpuState.statusByte, hflags, flags_over_low_bits _ (by omega)]
  congr 1
  omega

/-- The byte of $4015 has the IRQ flags in its top two bits, over six free ones (R325, R326). -/
theorem ApuState.statusByte_bits (u : ApuState) (free : Byte) :
    bit (u.statusByte free) 7 = u.dmcIrq ∧ bit (u.statusByte free) 6 = u.frameIrq := by
  simp only [bit, ApuState.statusByte, BitVec.getLsbD_or, BitVec.getLsbD_and]
  cases u.dmcIrq <;> cases u.frameIrq <;> simp [bitAt]

/-- Settles O40: PPUSTATUS is read at each of its mirrors by one route, and $4015 by its own; each read clears what its device's rule says. -/
theorem statusReadsClearTheirFlags : Obligations.StatusReadsClearTheirFlags := by
  unfold Obligations.StatusReadsClearTheirFlags
  intro b
  obtain ⟨hdmc, hframe⟩ := b.apu.statusByte_bits (Config.deviceByte 0x4015 b.deviceReads)
  have hread : (b.read 0x4015).1 = b.apu.statusByte (Config.deviceByte 0x4015 b.deviceReads) := rfl
  refine ⟨fun a ha => ?_, ?_, ?_, rfl, rfl⟩
  · rw [← PpuState.statusByte_eq, Bus.read, route_of_ppuIndex ha]
    rfl
  · rw [← bit_eq, hread, hdmc]
  · rw [← bit_eq, hread, hframe]

/-! ### OAM DMA (R328) -/

/-- One byte of the DMA: the read at its offset in the page, and the write to OAMDATA. -/
def dmaByte (page : Byte) (b : Bus) (k : Nat) : Bus :=
  let r := b.read (cell (page.toNat * 256 + k))
  r.2.write oamDataAddr r.1

theorem mkAddr_ofNat (page : Byte) {k : Nat} (hk : k < 256) : mkAddr page (BitVec.ofNat 8 k) = cell (page.toNat * 256 + k) := by
  rw [mkAddr_eq, joined, BitVec.toNat_ofNat, Nat.mod_eq_of_lt hk]

theorem Bus.dmaCopy_succ (page : Byte) {n : Nat} (hn : n < 256) (b : Bus) :
    Bus.dmaCopy page (n + 1) b = Bus.dmaCopy page n (dmaByte page b (256 - (n + 1))) := by
  rw [Bus.dmaCopy, mkAddr_ofNat page (by omega)]
  rfl

/-- The last `n` bytes of the page, in order. -/
theorem Bus.dmaCopy_eq_foldl (page : Byte) {n : Nat} (hn : n ≤ 256) (b : Bus) :
    Bus.dmaCopy page n b = (List.range' (256 - n) n).foldl (dmaByte page) b := by
  induction n generalizing b with
  | zero => rfl
  | succ n ih =>
    rw [Bus.dmaCopy_succ page hn, ih (Nat.le_of_succ_le hn), List.range'_succ, List.foldl_cons, show 256 - (n + 1) + 1 = 256 - n by omega]

theorem dmaStall_eq (cycles : Nat) : dmaStall cycles = if cycles % 2 = 1 then 514 else 513 := by
  unfold dmaStall
  split <;> omega

/-- A requested DMA (R328). -/
theorem State.runDma_some {s : State} {page : Byte} (h : s.bus.dmaRequest = some page) :
    s.runDma =
      { s with
        cpu := { s.cpu with cycles := s.cpu.cycles + dmaStall s.cpu.cycles }
        bus := { Bus.dmaCopy page 256 s.bus with dmaRequest := none }
        stepCycles := s.stepCycles + dmaStall s.cpu.cycles } := by
  rw [State.runDma, h]

/-- One byte of the DMA moves OAMADDR on. -/
theorem dmaByte_oamAddr (page : Byte) (b : Bus) (k : Nat) : (dmaByte page b k).ppu.oamAddr = b.ppu.oamAddr + 1 :=
  congrArg (· + 1) (Bus.read_ppu_oamAddr _ b)

/-- It puts the byte read in OAM at OAMADDR. -/
theorem dmaByte_oam {page : Byte} {b : Bus} {k : Nat} {v : Byte} (hv : b.byteAt (cell (page.toNat * 256 + k)) = some v) :
    (dmaByte page b k).ppu.oam = b.ppu.oam.write Config.oamInit b.ppu.oamAddr.toNat v := by
  have hppu : (dmaByte page b k).ppu =
      (b.read (cell (page.toNat * 256 + k))).2.ppu.writeOam (b.read (cell (page.toNat * 256 + k))).1 := rfl
  rw [hppu, Bus.read_storage hv]
  rfl

theorem dmaByte_byteAt (page : Byte) (b : Bus) (k : Nat) (a : Addr) : (dmaByte page b k).byteAt a = b.byteAt a := by
  have hoam : ¬ sameRamByte oamDataAddr a := fun h => absurd h.1 (by decide)
  rw [dmaByte, Bus.byteAt_write_other _ _ hoam, Bus.byteAt_read]

theorem Bus.dmaCopy_oamAddr (page : Byte) {n : Nat} (hn : n ≤ 256) (b : Bus) :
    (Bus.dmaCopy page n b).ppu.oamAddr = b.ppu.oamAddr + BitVec.ofNat 8 n := by
  induction n generalizing b with
  | zero => exact (BitVec.add_zero _).symm
  | succ n ih =>
    rw [Bus.dmaCopy_succ page hn, ih (Nat.le_of_succ_le hn), dmaByte_oamAddr, BitVec.add_assoc, BitVec.add_comm 1, BitVec.ofNat_add]
    rfl

/-- Copying the last `n` bytes of a page of storage, which holds `bytes`: they stand in OAM from OAMADDR on, wrapping, in front of what was there. -/
theorem Bus.dmaCopy_oam {page : Byte} {bytes : Nat → Byte} {n : Nat} (hn : n ≤ 256) {b : Bus}
    (hpage : ∀ k < 256, b.byteAt (cell (page.toNat * 256 + k)) = some (bytes k)) (hwf : b.ppu.oam.wf Config.oamInit 256)
    {i : Nat} (hi : i < 256) :
    (Bus.dmaCopy page n b).ppu.oam.read Config.oamInit ((b.ppu.oamAddr.toNat + i) % 256) =
      if i < n then bytes (256 - n + i) else b.ppu.oam.read Config.oamInit ((b.ppu.oamAddr.toNat + i) % 256) := by
  induction n generalizing b i with
  | zero => rfl
  | succ n ih =>
    have hat : b.ppu.oamAddr.toNat < 256 := b.ppu.oamAddr.isLt
    have hoam := dmaByte_oam (hpage (256 - (n + 1)) (by omega))
    have hnext : (dmaByte page b (256 - (n + 1))).ppu.oamAddr.toNat = (b.ppu.oamAddr.toNat + 1) % 256 :=
      (congrArg BitVec.toNat (dmaByte_oamAddr _ _ _)).trans (BitVec.toNat_add _ _)
    have hrest {j : Nat} (hj : j < 256) := ih (b := dmaByte page b (256 - (n + 1))) (Nat.le_of_succ_le hn)
      (fun k hk => (dmaByte_byteAt page b _ _).trans (hpage k hk)) (hoam ▸ Memory.wf_write _ hwf hat) hj
    rw [hnext, hoam] at hrest
    rw [Bus.dmaCopy_succ page hn]
    cases i with
    | zero =>
      -- the slot written first is the last of those counted from the next one
      have h := hrest (j := 255) (by decide)
      rw [if_neg (by omega), show ((b.ppu.oamAddr.toNat + 1) % 256 + 255) % 256 = b.ppu.oamAddr.toNat by omega,
        Memory.read_write_same _ _ hwf.rising] at h
      rw [if_pos (Nat.succ_pos n), show (b.ppu.oamAddr.toNat + 0) % 256 = b.ppu.oamAddr.toNat by omega]
      exact h
    | succ i =>
      have h := hrest (j := i) (by omega)
      rw [show ((b.ppu.oamAddr.toNat + 1) % 256 + i) % 256 = (b.ppu.oamAddr.toNat + (i + 1)) % 256 by omega] at h
      rw [h, Memory.read_write_other _ _ _ (by omega), show 256 - (n + 1) + (i + 1) = 256 - n + i by omega]
      simp only [Nat.succ_lt_succ_iff]

/-- A page below $20 or from $80 on lies in RAM or in the PRG image. -/
theorem page_inStorage {page : Byte} (h : page.toNat < 0x20 ∨ 0x80 ≤ page.toNat) (b : Bus) :
    ∃ bytes : Nat → Byte, ∀ k < 256, b.byteAt (cell (page.toNat * 256 + k)) = some (bytes k) := by
  have hpage := page.isLt
  have haddr {k : Nat} (hk : k < 256) : (cell (page.toNat * 256 + k)).toNat = page.toNat * 256 + k := by
    rw [cell_toNat]
    omega
  obtain hram | hprg := h
  · exact ⟨_, fun k hk => Bus.byteAt_of_ram (by rw [haddr hk]; omega) b⟩
  · exact ⟨_, fun k hk => Bus.byteAt_of_prg (by rw [haddr hk]; omega) b⟩

/-- Settles O52: the copy is one byte after another (`Bus.dmaCopy_eq_foldl`), and from storage it fills OAM once around (`Bus.dmaCopy_oam`). -/
theorem oamDmaCopiesThePage : Obligations.OamDmaCopiesThePage := by
  unfold Obligations.OamDmaCopiesThePage
  refine ⟨fun s h => State.runDma_none h, fun s page h => ?_, fun s page h hpage hwf => ?_⟩
  · rw [State.runDma_some h, dmaStall_eq, Bus.dmaCopy_eq_foldl page (Nat.le_refl 256), List.range_eq_range']
    rfl
  · obtain ⟨bytes, hbytes⟩ := page_inStorage hpage s.bus
    rw [State.runDma_some h]
    refine ⟨(Bus.dmaCopy_oamAddr page (Nat.le_refl 256) s.bus).trans (BitVec.add_zero _), fun k hk => ?_⟩
    rw [hbytes k hk, Bus.dmaCopy_oam (Nat.le_refl 256) hbytes hwf hk, if_pos hk, Nat.sub_self, Nat.zero_add]

end Sys2Proof.Machine
end

section
/-! PROOFS. What is around a run: loading a cartridge (60_exceptions R302; 20_memory R67) and the disassembly view (60_exceptions R334;
20_memory R66). -/

namespace Sys2Proof.Machine

/-! ### Loading a cartridge (R302) -/

/-- Each byte loaded is read back at its place. -/
theorem Memory.read_load {u : Nat → Byte} {n : Nat} (bytes : List Byte) {m : Memory} {a : Nat} (hm : m.wf u n)
    (ha : a + bytes.length ≤ n) {k : Nat} (hk : k < bytes.length) : (Memory.load u m a bytes).read u (a + k) = bytes[k] := by
  induction bytes generalizing m a k with
  | nil => exact absurd hk (Nat.not_lt_zero k)
  | cons v rest ih =>
    rw [List.length_cons] at ha hk
    cases k with
    | zero => exact Memory.read_load_first a v rest hm.rising
    | succ k =>
      have h := ih (Memory.wf_write v hm (by omega : a < n)) (by omega : a + 1 + rest.length ≤ n) (by omega : k < rest.length)
      rw [Nat.add_assoc, Nat.add_comm 1 k] at h
      exact h

/-- An image of `PRG_SIZE` bytes makes a cartridge that holds it. -/
theorem mapper_holds {size : PrgSize} {image : List Byte} (h : image.length = size.bytes) :
    let m : Mapper := { prgSize := size, prg := Memory.load zeroFill [] 0 image }
    m.prgSize.bytes = image.length ∧ m.prg.wf zeroFill m.prgSize.bytes ∧
      ∀ (k : Nat) (hk : k < image.length), m.prg.read zeroFill k = image[k] := by
  have hfits : 0 + image.length ≤ size.bytes := by omega
  refine ⟨h.symm, Memory.wf_load image (Memory.wf_nil _ _) hfits, fun k hk => ?_⟩
  have hread := Memory.read_load image (Memory.wf_nil zeroFill _) hfits hk
  rwa [Nat.zero_add] at hread

/-- Settles O54: the three cases of R302, and a loaded image is read back (`mapper_holds`). -/
theorem cartridgeLoadsOrFailsAtOnce : Obligations.CartridgeLoadsOrFailsAtOnce := by
  unfold Obligations.CartridgeLoadsOrFailsAtOnce
  refine fun number image => ⟨fun hnumber hsize => ?loads, fun hnumber => if_pos hnumber, fun hnumber h16 h32 => ?size⟩
  case loads =>
    obtain h16 | h32 := hsize
    · exact ⟨_, by rw [Cartridge.load, if_neg (by simp [hnumber]), if_pos h16], mapper_holds (size := .k16) h16⟩
    · exact ⟨_, by rw [Cartridge.load, if_neg (by simp [hnumber]), if_neg (by omega), if_pos h32], mapper_holds (size := .k32) h32⟩
  case size => rw [Cartridge.load, if_neg (by simp [hnumber]), if_neg h16, if_neg h32]

/-! ### The disassembly view (R334) -/

theorem encode_length_le (i : Instr) : (encode i).length ≤ 3 := by
  obtain ⟨op, operands, he, hm⟩ := Laws.FormOfOpcode.of_instr i
  rw [he]
  cases hf : opcodeMap op <;> rw [hf] at hm
  case one =>
    obtain ⟨rfl, -⟩ := hm
    exact Nat.le_add_left 1 2
  case two =>
    obtain ⟨_, rfl, -⟩ := hm
    exact Nat.le_succ 2
  case three =>
    obtain ⟨_, _, rfl, -⟩ := hm
    exact Nat.le_refl 3
  case threeLate =>
    obtain ⟨_, _, rfl, -⟩ := hm
    exact Nat.le_refl 3

/-- The three bytes that the disassembly view looks at (20_memory R66). -/
def peeked (s : State) : List Byte :=
  [s.bus.peek s.cpu.pc, s.bus.peek (s.cpu.pc + 1), s.bus.peek (s.cpu.pc + 2)]

theorem peeked_getElem (s : State) : ∀ (k : Nat) (h : k < (peeked s).length), (peeked s)[k] = s.bus.peek (s.cpu.pc + cell k)
  | 0, _ => congrArg s.bus.peek (BitVec.add_zero _).symm
  | 1, _ => rfl
  | 2, _ => rfl

/-- They begin with the code of the instruction that the next step runs. -/
theorem peeked_take_of_runs {i : Instr} {s : State} (h : Runs i s) : (peeked s).take (encode i).length = encode i := by
  apply List.ext_getElem
  · rw [List.length_take]
    exact Nat.min_eq_left (encode_length_le i)
  · intro k hk hcode
    rw [List.getElem_take, peeked_getElem]
    exact Bus.read_of_byteAt (h.code k hcode)

/-- Settles O55: Peek returns the bytes of storage, and those at PC decode to the instruction whose code they are. -/
theorem disassemblyShowsTheNextInstruction : Obligations.DisassemblyShowsTheNextInstruction := by
  unfold Obligations.DisassemblyShowsTheNextInstruction
  intro i s hr
  have hsplit := List.take_append_drop (encode i).length (peeked s)
  rw [peeked_take_of_runs hr] at hsplit
  have hdecode := decode_encode_append i ((peeked s).drop (encode i).length)
  rw [hsplit, peeked] at hdecode
  rw [State.disassemble, hdecode]

end Sys2Proof.Machine
end
